-- ==== Sys2Proof/Word.lean ====
section
/-! DEFINITION. The bit-vector types of the block: its register, its bytes, its port address and its
transaction word (00_scope.md R7, 30_encoding.md R50). No value of this block is signed. -/

namespace Sys2Proof

/-- One byte: a message byte, `wdata`, `rdata`, one emitted checksum byte. -/
abbrev Byte := BitVec 8

/-- The width of the accumulator `crc` (10_state.md R10). -/
abbrev Reg16 := BitVec 16

/-- A block-local register address; every one of its four values is mapped (10_state.md R15). -/
abbrev PortAddr := BitVec 2

/-- A transaction word, laid out we, addr, wdata from the top (30_encoding.md R50). -/
abbrev TxWord := BitVec 11

end Sys2Proof
end

