-- ==== Sys2Proof/Syntax.lean ====
section
/-! DEFINITION. The instructions: the nine transactions of the register port (30_encoding.md R52), one
constructor per row of spec/opcode_table.json, with the operands that 30_encoding.md R53 hands to them. -/

namespace Sys2Proof

/-- One transaction. A bit of the word that the block ignores (30_encoding.md R55) is no operand. -/
inductive Instr where
  /-- `UPD b`: write DATA, absorb the byte b (R90). -/
  | upd (b : Byte)
  /-- `INIT`: write CSR with bit 0 set (R91). -/
  | init
  /-- `WCSR v`: write CSR with bit 0 clear (R92); v is an even byte (R56). -/
  | wcsr (v : Byte)
  /-- `WLO v`: write the read-only CRC_LO (R93). -/
  | wlo (v : Byte)
  /-- `WHI v`: write the read-only CRC_HI (R94). -/
  | whi (v : Byte)
  /-- `RDATA`: read the write-only DATA (R110). -/
  | rdata
  /-- `RCSR`: read the control and status register (R111). -/
  | rcsr
  /-- `RLO`: read the low byte of `crc` (R112). -/
  | rlo
  /-- `RHI`: read the high byte of `crc` (R113). -/
  | rhi
  deriving DecidableEq, Repr

/-- The nine rows of the opcode map, without operands (30_encoding.md R52). -/
inductive Opcode where
  | upd | init | wcsr | wlo | whi | rdata | rcsr | rlo | rhi
  deriving DecidableEq, Repr

/-- The four registers of the port (10_state.md R15). -/
inductive PortReg where
  | data | csr | crcLo | crcHi
  deriving DecidableEq, Repr

/-- The row of the opcode map an instruction belongs to. -/
def Instr.opcode : Instr → Opcode
  | .upd _ => .upd
  | .init => .init
  | .wcsr _ => .wcsr
  | .wlo _ => .wlo
  | .whi _ => .whi
  | .rdata => .rdata
  | .rcsr => .rcsr
  | .rlo => .rlo
  | .rhi => .rhi

/-- The mnemonic as the table spells it (30_encoding.md R56). -/
def Opcode.mnemonic : Opcode → String
  | .upd => "UPD"
  | .init => "INIT"
  | .wcsr => "WCSR"
  | .wlo => "WLO"
  | .whi => "WHI"
  | .rdata => "RDATA"
  | .rcsr => "RCSR"
  | .rlo => "RLO"
  | .rhi => "RHI"

/-- The operations that select a read transaction (42_read_ops.md). -/
def Instr.isRead : Instr → Bool
  | .rdata | .rcsr | .rlo | .rhi => true
  | .upd _ | .init | .wcsr _ | .wlo _ | .whi _ => false

end Sys2Proof
end

