-- ==== Sys2Proof/WellFormed.lean ====
section
/-! DEFINITION. Which terms of Instr are instructions. Every operand is a byte by its type, so the one
check left is the operand of WCSR: a CSR write with bit 0 set is an INIT (30_encoding.md R56). -/

namespace Sys2Proof

/-- The check of one instruction: only WCSR has one, an even operand (30_encoding.md R56). -/
def Instr.wellFormed : Instr → Bool
  | .wcsr v => !v.getLsbD 0
  | .upd _ | .init | .wlo _ | .whi _ | .rdata | .rcsr | .rlo | .rhi => true

/-- `wellFormed` as a proposition. -/
abbrev Instr.WellFormed (i : Instr) : Prop := i.wellFormed = true

end Sys2Proof
end

