-- ==== Sys2Proof/Decode.lean ====
section
/-! DEFINITION. The transaction word: its fields, the decoder (30_encoding.md R53), the opcode map as
masks and patterns (R52), the encoder and the assembler's check (R56), the canonical form of a word (R55).
Decoding a word is total; a number or an access that is no transaction word is rejected by name
(20_memory.md R36, 93_implementation_defined.md U9). -/

namespace Sys2Proof

/-! ### Fields (30_encoding.md R50) -/

/-- `{we, addr, wdata}`. -/
def mkWord (we : Bool) (addr : PortAddr) (wdata : Byte) : TxWord :=
  BitVec.ofBool we ++ addr ++ wdata

/-- Bit 10: 1 for a write, 0 for a read. -/
def weOf (w : TxWord) : Bool := w.getLsbD 10

/-- Bits 9:8: the block-local address. -/
def addrOf (w : TxWord) : PortAddr := w.extractLsb' 8 2

/-- Bits 7:0: the byte written; the block ignores it in a read. -/
def wdataOf (w : TxWord) : Byte := w.extractLsb' 0 8

/-- The register at a block-local address (10_state.md R15, 20_memory.md R32): no address is unmapped. -/
def regOfAddr (a : PortAddr) : PortReg :=
  if a = 0#2 then .data
  else if a = 1#2 then .csr
  else if a = 2#2 then .crcLo
  else .crcHi

/-- The block-local address of a register (20_memory.md R32). -/
def addrOfReg : PortReg → PortAddr
  | .data => 0#2
  | .csr => 1#2
  | .crcLo => 2#2
  | .crcHi => 3#2

/-! ### Decoding (30_encoding.md R53) -/

/-- The operation a write transaction selects: at CSR bit 0 of the written byte alone decides. -/
def decodeWrite (r : PortReg) (wdata : Byte) : Instr :=
  match r with
  | .data => .upd wdata
  | .csr => if wdata.getLsbD 0 then .init else .wcsr wdata
  | .crcLo => .wlo wdata
  | .crcHi => .whi wdata

/-- The operation a read transaction selects. -/
def decodeRead : PortReg → Instr
  | .data => .rdata
  | .csr => .rcsr
  | .crcLo => .rlo
  | .crcHi => .rhi

/-- The operation of a transaction word; all 2048 words have one (30_encoding.md R52, R53, R55).
Log entry 7. -/
def decodeWord (w : TxWord) : Instr :=
  if weOf w then decodeWrite (regOfAddr (addrOf w)) (wdataOf w)
  else decodeRead (regOfAddr (addrOf w))

/-- Why something outside the interface is no transaction word (93_implementation_defined.md U9). -/
inductive DecodeError where
  /-- A number above 0x7FF: it has more than 11 bits. Raised by `decodeNumber`; safe, nothing runs. -/
  | notATransactionWord
  /-- An access that is not exactly one byte (20_memory.md R36). Raised by `wordOfAccess`; safe. -/
  | accessNotOneByte
  /-- A block-local address above 3 (20_memory.md R30). Raised by `wordOfAccess`; safe. -/
  | addressOutOfRange
  /-- A written value that is no byte (20_memory.md R36). Raised by `wordOfAccess`; safe. -/
  | dataNotAByte
  deriving DecidableEq, Repr

/-- Decodes any number: a transaction word in 0x000 .. 0x7FF, or rejected by name. Log entry 9. -/
def decodeNumber (n : Nat) : Except DecodeError Instr :=
  if n < 2048 then .ok (decodeWord (BitVec.ofNat 11 n)) else .error .notATransactionWord

/-- The instruction the decoder reads from `nbits` bits numbered as spec/opcode_table.json numbers them;
a bit above `nbits` is 0. Log entry 9. -/
def decodeTableWord (nbits w : Nat) : Option Instr :=
  match decodeNumber (w % 2 ^ nbits) with
  | .ok i => some i
  | .error _ => none

/-- The word of an access a host bus presents at a block-local address, `bytes` wide: the interface
carries single bytes at addresses 0 to 3 and nothing else (20_memory.md R36, U9). Log entry 9. -/
def wordOfAccess (write : Bool) (addr bytes data : Nat) : Except DecodeError TxWord :=
  if bytes ≠ 1 then .error .accessNotOneByte
  else if 4 ≤ addr then .error .addressOutOfRange
  else if 256 ≤ data then .error .dataNotAByte
  else .ok (mkWord write (BitVec.ofNat 2 addr) (BitVec.ofNat 8 data))

/-! ### The opcode map (30_encoding.md R52) -/

/-- The `mask` column. -/
def Opcode.mask : Opcode → TxWord
  | .init | .wcsr => 0x701#11
  | .upd | .wlo | .whi | .rdata | .rcsr | .rlo | .rhi => 0x700#11

/-- The `match` column. -/
def Opcode.pattern : Opcode → TxWord
  | .upd => 0x400#11
  | .init => 0x501#11
  | .wcsr => 0x500#11
  | .wlo => 0x600#11
  | .whi => 0x700#11
  | .rdata => 0x000#11
  | .rcsr => 0x100#11
  | .rlo => 0x200#11
  | .rhi => 0x300#11

/-- A word w selects a row when `(w and mask) == match`. -/
def Opcode.selects (o : Opcode) (w : TxWord) : Bool := (w &&& o.mask) == o.pattern

/-! ### Encoding and assembling (30_encoding.md R56) -/

/-- The canonical word of an instruction: the table of 30_encoding.md R56. DESIGN CHOICE for WCSR v, whose word
is 0x500 + v as in that table and not the one word 0x500 of R55 and R92: log entry 17. -/
def encode : Instr → TxWord
  | .upd b => mkWord true 0#2 b
  | .init => mkWord true 1#2 0x01#8
  | .wcsr v => mkWord true 1#2 v
  | .wlo v => mkWord true 2#2 v
  | .whi v => mkWord true 3#2 v
  | .rdata => mkWord false 0#2 0x00#8
  | .rcsr => mkWord false 1#2 0x00#8
  | .rlo => mkWord false 2#2 0x00#8
  | .rhi => mkWord false 3#2 0x00#8

/-- The assembler: it rejects WCSR with an odd operand and emits the canonical word of anything else. -/
def assemble (i : Instr) : Option TxWord :=
  if i.wellFormed then some (encode i) else none

/-- The pseudo-instruction `NOP` (30_encoding.md R57). -/
def nop : Instr := .wcsr 0x00#8

/-- The canonical word of the operation and operand a word stands for: a read has wdata 0x00 and INIT has wdata
0x01 (30_encoding.md R55 and R56); UPD, WCSR, WLO and WHI keep their byte, it is the assembler's operand (R56,
log entry 7). DESIGN CHOICE for WCSR, safe: 30_encoding.md R55 and 41_write_ops.md R92 call 0x500 the canonical
WCSR, the table of R56 gives 0x500 + v; the model follows R56 (log entry 17). -/
def canonicalWord (w : TxWord) : TxWord :=
  if weOf w then
    (if addrOf w = 1#2 ∧ (wdataOf w).getLsbD 0 then 0x501#11 else w)
  else mkWord false (addrOf w) 0x00#8

/-- What a disassembler shows of a word: the operation, and beside it the byte of a word that is not
canonical (30_encoding.md R56, last paragraph). -/
def disassemble (w : TxWord) : Instr × Option Byte :=
  (decodeWord w, if canonicalWord w = w then none else some (wdataOf w))

/-! ### The text of a line (30_encoding.md R56). Log entry 16. -/

/-- The byte a line's operand stands for: a number 0 to 255, and none above (log entry 16). -/
def byteOperand (n : Nat) : Option Byte := if n < 256 then some (BitVec.ofNat 8 n) else none

/-- The instruction of one line: its mnemonic and the numbers after it. UPD, WCSR, WLO and WHI take one
byte, everything else takes nothing; NOP is the pseudo-instruction of 30_encoding.md R57. -/
def parseLine (mnemonic : String) (operands : List Nat) : Option Instr :=
  match operands with
  | [n] =>
    if mnemonic = "UPD" then (byteOperand n).map .upd
    else if mnemonic = "WCSR" then (byteOperand n).map .wcsr
    else if mnemonic = "WLO" then (byteOperand n).map .wlo
    else if mnemonic = "WHI" then (byteOperand n).map .whi
    else none
  | [] =>
    if mnemonic = "INIT" then some .init
    else if mnemonic = "NOP" then some nop
    else if mnemonic = "RDATA" then some .rdata
    else if mnemonic = "RCSR" then some .rcsr
    else if mnemonic = "RLO" then some .rlo
    else if mnemonic = "RHI" then some .rhi
    else none
  | _ => none

/-- The word of one line: the assembler also rejects WCSR with an odd operand. -/
def assembleLine (mnemonic : String) (operands : List Nat) : Option TxWord :=
  (parseLine mnemonic operands).bind assemble

/-- One hexadecimal digit, in capitals. -/
def hexDigit (n : Nat) : Char := if n < 10 then Char.ofNat (48 + n) else Char.ofNat (55 + n)

/-- A byte as 0x and two hexadecimal digits. -/
def hexByte (b : Byte) : List Char := ['0', 'x', hexDigit (b.toNat / 16), hexDigit (b.toNat % 16)]

/-- What a disassembler prints of a word: the row's mnemonic, the operand where the syntax has one, and
the byte of a word that is not canonical as a comment, in the words of the two examples of R56. -/
def printWord (w : TxWord) : List Char :=
  let i := decodeWord w
  let comment (tail : String) : List Char :=
    if canonicalWord w = w then [] else " ; wdata=".toList ++ hexByte (wdataOf w) ++ tail.toList
  match i with
  | .upd b => "UPD ".toList ++ hexByte b
  | .wcsr v => "WCSR ".toList ++ hexByte v
  | .wlo v => "WLO ".toList ++ hexByte v
  | .whi v => "WHI ".toList ++ hexByte v
  | .init => i.opcode.mnemonic.toList ++ comment ""
  | .rdata | .rcsr | .rlo | .rhi => i.opcode.mnemonic.toList ++ comment " ignored"

end Sys2Proof
end

