-- ==== Sys2Proof/Config.lean ====
section
/-! DEFINITION. The constants the source fixes (00_scope.md R5), and the two parameters the spec leaves
open that are not an argument of a definition (00_scope.md R6, 92_eei_decisions.md): the read data outside
a valid read, and the base address. The third one, POWERUP_CRC, is the argument of State.powerUp. -/

namespace Sys2Proof

/-- `INIT_VALUE` (00_scope.md R5). -/
def Config.initValue : Reg16 := 0xFFFF#16

/-- `FEEDBACK`: the constant XORed in after a right shift when the bit shifted out was 1. It is not a
generator polynomial (90_conflicts.md C5). -/
def Config.feedback : Reg16 := 0xA001#16

/-- `unspecified_8`: what `rdata` holds in a cycle that is not a performed read (70_reset_and_hazards.md
R160, R168; 93_implementation_defined.md U4). The argument numbers the occurrence, so that each one is
drawn anew. A FREE VALUE: it has no body and nothing can be proved of it. Log entry 3. -/
opaque Config.unspecified8 : Nat → Byte

/-- `CRC_BASE`: where the four registers stand in a host's address space (20_memory.md R32). OPEN; no rule
of the block reads it, only Machine/HostBus.lean does. Log entry 12. -/
opaque Config.crcBase : Nat

end Sys2Proof
end

