-- ==== Sys2Proof/Machine/Operands.lean ====
section
/-! DEFINITION. The operand forms: the 8-bit immediate of a write, zero-extended where it meets the
register (30_encoding.md R54), and the two bytes the register is read out as (20_memory.md R33). -/

namespace Sys2Proof.Machine

/-- `zext_16(b)`: zeros in bits 15:8 (00_scope.md R7). -/
def zext16 (b : Byte) : Reg16 := b.setWidth 16

/-- `r[7:0]`: the byte that goes first in a frame. -/
def lowByte (r : Reg16) : Byte := r.extractLsb' 0 8

/-- `r[15:8]`: the byte that goes second in a frame. -/
def highByte (r : Reg16) : Byte := r.extractLsb' 8 8

end Sys2Proof.Machine
end

