-- ==== Sys2Proof/Machine/Crc.lean ====
section
/-! DEFINITION. The checksum as pure functions, 40_crc_core.md R71 to R74, R78 and the inverse of R82,
in the words of their pseudocode. -/

namespace Sys2Proof.Machine

/-- One of the eight repetitions: bit 0 is tested before the logical shift (40_crc_core.md R71). -/
def shiftStep (r : Reg16) : Reg16 :=
  if r.getLsbD 0 then (r >>> 1) ^^^ Config.feedback else r >>> 1

/-- Absorbs one byte: one XOR into bits 7:0, then exactly eight shift steps (40_crc_core.md R72). -/
def updateByte (r : Reg16) (b : Byte) : Reg16 :=
  let t0 := r ^^^ zext16 b
  let t1 := shiftStep t0
  let t2 := shiftStep t1
  let t3 := shiftStep t2
  let t4 := shiftStep t3
  let t5 := shiftStep t4
  let t6 := shiftStep t5
  let t7 := shiftStep t6
  shiftStep t7

/-- `ShiftStep` applied eight times, named Shift8 in 40_crc_core.md R81. -/
def shift8 (r : Reg16) : Reg16 := shiftStep^[8] r

/-- The inverse of `ShiftStep`: bit 15 of the result tells the bit shifted out (40_crc_core.md R82). -/
def shiftStepInv (o : Reg16) : Reg16 :=
  if o.getLsbD 15 then ((o ^^^ Config.feedback).extractLsb' 0 15) ++ 1#1
  else (o.extractLsb' 0 15) ++ 0#1

/-- The loop of 40_crc_core.md R73, from any register value: the bytes in sequence order. -/
def absorbAll (r : Reg16) : List Byte → Reg16
  | [] => r
  | b :: s => absorbAll (updateByte r b) s

/-- The final register value of a message; nothing is applied after the loop (40_crc_core.md R73). -/
def crc16Reg (s : List Byte) : Reg16 := absorbAll Config.initValue s

/-- The checksum of a message: two bytes, the low one first (40_crc_core.md R74). -/
def crc16 (s : List Byte) : List Byte := [lowByte (crc16Reg s), highByte (crc16Reg s)]

/-- Whether a frame ends in the checksum of the bytes before it; false for fewer than two bytes
(40_crc_core.md R78, 92_eei_decisions.md D12). -/
def frameValid (f : List Byte) : Bool :=
  if f.length < 2 then false
  else crc16 (f.take (f.length - 2)) == f.drop (f.length - 2)

end Sys2Proof.Machine
end

