-- ==== Sys2Proof/Machine/Flags.lean ====
section
/-! DEFINITION. The one flag, `ZERO`, which is not stored (10_state.md R14), and the byte a read of CSR
returns with it (10_state.md R17). -/

namespace Sys2Proof.Machine

/-- `ZERO`: 1 exactly when the register is 0x0000, recomputed at every read (10_state.md R14). -/
def zeroFlag (crc : Reg16) : Bool := crc == 0x0000#16

/-- The read value of CSR: `{0b000000, ZERO, 0}` (10_state.md R15, R17; 42_read_ops.md R111). -/
def csrByte (crc : Reg16) : Byte := 0b000000#6 ++ BitVec.ofBool (zeroFlag crc) ++ 0b0#1

end Sys2Proof.Machine
end

