-- ==== Sys2Proof/Machine/State.lean ====
section
/-! DEFINITION. The state. The block itself holds exactly one storage element, `crc` (10_state.md R10,
R12). Beside it stand the port: what the host presents and what `rdata` carries (70_reset_and_hazards.md
R168), what a run observes (R170), and the model's own counter of free values. Log entries 1, 3 and 4. -/

namespace Sys2Proof.Machine

/-- The input signals of one clock cycle (70_reset_and_hazards.md R168). `clk` is the step itself. -/
structure PortCycle where
  /-- Synchronous reset, active high. -/
  rst : Bool
  /-- 1: a transaction is presented in this cycle. -/
  sel : Bool
  /-- With sel: 1 a write, 0 a read. -/
  we : Bool
  /-- With sel: the block-local register address. -/
  addr : PortAddr
  /-- With sel and we: the byte written. -/
  wdata : Byte
  deriving DecidableEq, Repr

/-- The block, its port and what its host has seen of it. -/
structure State where
  /-- THE BLOCK: the accumulator, its one storage element (10_state.md R10). -/
  crc : Reg16
  /-- THE PORT: the output `rdata` in the cycle performed last (70_reset_and_hazards.md R168). -/
  rdata : Byte
  /-- THE HOST: the cycles it is about to present, the next one first (10_state.md R13, R170). -/
  port : List PortCycle
  /-- THE HOST: the read data returned so far, oldest first (70_reset_and_hazards.md R170). -/
  observed : List Byte
  /-- THE MODEL: how many times `unspecified_8` has been drawn. -/
  draws : Nat
  deriving DecidableEq, Repr

/-- The reasons the machine stops with a fault. There are none: "The list of exception causes is empty"
(60_exceptions.md R140), and "a model of it has no fault outcome for any transaction" (R146). Nobody raises one; that is not the safe
kind of stop but the absence of any, so a claim that the block never faults rests on it. Log entry 11. -/
inductive Fault where
  deriving DecidableEq, Repr

/-- The reasons the model refuses an instruction. -/
inductive Refusal where
  /-- An arm of exec without a meaning would raise it. No arm does; safe, nothing would run. -/
  | notModelled (mnemonic : String)
  deriving DecidableEq, Repr

/-- Power has been applied and no reset has happened: `crc` holds POWERUP_CRC, the argument, of which the
spec promises nothing (70_reset_and_hazards.md R161). Log entries 4 and 6. -/
def State.powerUp (powerupCrc : Reg16) : State :=
  { crc := powerupCrc, rdata := Config.unspecified8 0, port := [], observed := [], draws := 1 }

/-- Right after a reset: `crc` is 0xFFFF (10_state.md R20); `rdata` is what it is in a reset cycle,
unspecified (R160); the host has presented nothing. Log entry 4. -/
def State.reset : State :=
  { crc := Config.initValue, rdata := Config.unspecified8 0, port := [], observed := [], draws := 1 }

end Sys2Proof.Machine
end

