-- ==== Sys2Proof/Machine/Ops.lean ====
section
/-! DEFINITION. The named operations over the state that the meanings are written with, the primitives
RegRead and RegWrite (00_scope.md R8), and the cycles that carry no instruction: reset
(70_reset_and_hazards.md R160) and idle (R165).

There is no operation for taking an exception and none for returning from one: the block raises nothing,
saves nothing and has no trap mechanism (60_exceptions.md R140, R144, R145). It has no memory either
(20_memory.md R30); its address space is the four registers. -/

namespace Sys2Proof.Machine

/-! ### The register and the read data -/

/-- `crc <- v` (00_scope.md R8). -/
def State.setCrc (s : State) (v : Reg16) : State := { s with crc := v }

/-- A performed read returns v: `rdata` carries it and the host observes it (42_read_ops.md, R170). -/
def State.driveRead (s : State) (v : Byte) : State :=
  { s with rdata := v, observed := s.observed ++ [v] }

/-- A cycle without a performed read: `rdata` is `unspecified_8`, drawn anew (R168, U4). Log entry 3. -/
def State.driveUnspecified (s : State) : State :=
  { s with rdata := Config.unspecified8 s.draws, draws := s.draws + 1 }

/-- The host samples whatever `rdata` carries, as it does for a read presented under reset (R143). -/
def State.sampleRdata (s : State) : State := { s with observed := s.observed ++ [s.rdata] }

/-! ### The primitives of 00_scope.md R8 -/

/-- `RegRead(a)`: what a read of a register returns (10_state.md R15 to R19). -/
def regRead (r : PortReg) (crc : Reg16) : Byte :=
  match r with
  | .data => 0x00#8
  | .csr => csrByte crc
  | .crcLo => lowByte crc
  | .crcHi => highByte crc

/-- `RegWrite(a, v)`: what a write of a register leaves in `crc` (10_state.md R15 to R19). -/
def regWrite (r : PortReg) (v : Byte) (crc : Reg16) : Reg16 :=
  match r with
  | .data => updateByte crc v
  | .csr => if v.getLsbD 0 then Config.initValue else crc
  | .crcLo => crc
  | .crcHi => crc

/-! ### Cycles -/

/-- The transaction word of a cycle that carries one (30_encoding.md R51). -/
def PortCycle.word (c : PortCycle) : TxWord := mkWord c.we c.addr c.wdata

/-- The cycle that presents a transaction word and no reset (30_encoding.md R51). -/
def PortCycle.ofWord (w : TxWord) : PortCycle :=
  { rst := false, sel := true, we := weOf w, addr := addrOf w, wdata := wdataOf w }

/-- The cycle that presents an instruction by its canonical word. -/
def PortCycle.ofInstr (i : Instr) : PortCycle := PortCycle.ofWord (encode i)

/-- A cycle without a transaction and without a reset (70_reset_and_hazards.md R165). -/
def PortCycle.idle : PortCycle := { rst := false, sel := false, we := false, addr := 0#2, wdata := 0x00#8 }

/-- A cycle with reset and no transaction: the reset event of 70_reset_and_hazards.md R170. -/
def PortCycle.resetOnly : PortCycle := { PortCycle.idle with rst := true }

/-- The host presents a read in this cycle, under reset or not. -/
def PortCycle.presentsRead (c : PortCycle) : Bool := c.sel && !c.we

/-- The cycle is idle: no transaction, no reset. -/
def PortCycle.isIdle (c : PortCycle) : Bool := !c.rst && !c.sel

/-- What one idle cycle does: `crc` is held (70_reset_and_hazards.md R165). -/
def idleCycle (s : State) : State := s.driveUnspecified

/-- What a cycle with `rst = 1` does: `crc <- 0xFFFF`, and a transaction presented in it is discarded. A
read among them returns `unspecified_8` (70_reset_and_hazards.md R160, 60_exceptions.md R143).
Log entry 5. -/
def resetCycle (c : PortCycle) (s : State) : State :=
  let t := (s.setCrc Config.initValue).driveUnspecified
  if c.presentsRead then t.sampleRdata else t

/-- The host queues further cycles behind those it is about to present. -/
def State.present (s : State) (cs : List PortCycle) : State := { s with port := s.port ++ cs }

end Sys2Proof.Machine
end

