-- ==== Sys2Proof/Machine/ReadOps.lean ====
section
/-! DEFINITION. The meanings of the read operations, 42_read_ops.md R110 to R113: each returns a byte
computed from `crc` as it stands and changes nothing of the block. -/

namespace Sys2Proof.Machine

/-- `RDATA`: returns 0x00, not the last byte written (R110). -/
def execRdata (s : State) : Host.Outcome State Fault Refusal := .next (s.driveRead 0x00#8)

/-- `RCSR`: returns `{0b000000, ZERO, 0}`; the read clears nothing (R111). -/
def execRcsr (s : State) : Host.Outcome State Fault Refusal := .next (s.driveRead (csrByte s.crc))

/-- `RLO`: returns `crc[7:0]` (R112). -/
def execRlo (s : State) : Host.Outcome State Fault Refusal := .next (s.driveRead (lowByte s.crc))

/-- `RHI`: returns `crc[15:8]` (R113). -/
def execRhi (s : State) : Host.Outcome State Fault Refusal := .next (s.driveRead (highByte s.crc))

end Sys2Proof.Machine
end

