-- ==== Sys2Proof/Machine/WriteOps.lean ====
section
/-! DEFINITION. The meanings of the write operations, 41_write_ops.md R90 to R94. `rdata` during a write is
`unspecified_8` (70_reset_and_hazards.md R168). -/

namespace Sys2Proof.Machine

/-- `UPD b`: `crc <- UpdateByte(crc, b)`, whatever `crc` holds (R90). -/
def execUpd (b : Byte) (s : State) : Host.Outcome State Fault Refusal :=
  .next (s.setCrc (updateByte s.crc b)).driveUnspecified

/-- `INIT`: `crc <- 0xFFFF` (R91). -/
def execInit (s : State) : Host.Outcome State Fault Refusal :=
  .next (s.setCrc Config.initValue).driveUnspecified

/-- `WCSR v`: a CSR write without the INIT bit does nothing (R92). Log entry 8 for an odd v. -/
def execWcsr (_v : Byte) (s : State) : Host.Outcome State Fault Refusal :=
  .next s.driveUnspecified

/-- `WLO v`: accepted and ignored; `crc[7:0]` is not replaced (R93). -/
def execWlo (_v : Byte) (s : State) : Host.Outcome State Fault Refusal :=
  .next s.driveUnspecified

/-- `WHI v`: accepted and ignored; `crc[15:8]` is not replaced (R94). -/
def execWhi (_v : Byte) (s : State) : Host.Outcome State Fault Refusal :=
  .next s.driveUnspecified

end Sys2Proof.Machine
end

