-- ==== Sys2Proof/Machine/Dispatch.lean ====
section
/-! DEFINITION. One arm per transaction: the case split of `Step`, 70_reset_and_hazards.md R171. -/

namespace Sys2Proof.Machine

/-- What one decoded transaction does (70_reset_and_hazards.md R171). -/
def exec (i : Instr) (s : State) : Host.Outcome State Fault Refusal :=
  match i with
  | .upd b => Sys2Proof.Machine.execUpd b s
  | .init => Sys2Proof.Machine.execInit s
  | .wcsr v => Sys2Proof.Machine.execWcsr v s
  | .wlo v => Sys2Proof.Machine.execWlo v s
  | .whi v => Sys2Proof.Machine.execWhi v s
  | .rdata => Sys2Proof.Machine.execRdata s
  | .rcsr => Sys2Proof.Machine.execRcsr s
  | .rlo => Sys2Proof.Machine.execRlo s
  | .rhi => Sys2Proof.Machine.execRhi s

end Sys2Proof.Machine
end

