-- ==== Sys2Proof/Machine/Cycle.lean ====
section
/-! DEFINITION. One clock cycle of the block: reset before transaction before idle
(70_reset_and_hazards.md R160, R168; 60_exceptions.md R143). -/

namespace Sys2Proof.Machine

/-- Performs the cycle c: under reset the presented transaction is discarded, otherwise a presented
transaction is decoded and performed whole (20_memory.md R37), otherwise the cycle is idle. -/
def performCycle (c : PortCycle) (s : State) : Host.Outcome State Fault Refusal :=
  if c.rst then .next (resetCycle c s)
  else if c.sel then exec (decodeWord c.word) s
  else .next (idleCycle s)

/-- What a host that presents nothing more leaves the block with: one more idle cycle, for as long as it
likes (70_reset_and_hazards.md R165, R170). Log entry 2. -/
def performNothing (s : State) : Host.Outcome State Fault Refusal := .next (idleCycle s)

/-- The cycle that presents the instruction whose bits are w, in front of those already pending; a number
that is no transaction word cannot be presented (93_implementation_defined.md U9). Log entry 10. -/
def presentFirst (s : State) (nbits w : Nat) : State :=
  if w % 2 ^ nbits < 2048 then
    { s with port := PortCycle.ofWord (BitVec.ofNat 11 (w % 2 ^ nbits)) :: s.port }
  else s

end Sys2Proof.Machine
end

