-- ==== Sys2Proof/Machine/Step.lean ====
section
/-! DEFINITION. One step: the next cycle the host presents is taken off the port and performed
(10_state.md R13, R23; 20_memory.md R39). Log entries 2 and 10. -/

namespace Sys2Proof.Machine

/-- One step of the block: one clock cycle (70_reset_and_hazards.md R168, R169). -/
def step (s : State) : Host.Outcome State Fault Refusal :=
  match s.port with
  | [] => performNothing s
  | c :: rest => performCycle c { s with port := rest }

/-- s with the instruction whose bits are w presented in the next cycle. Log entry 10. -/
def State.withFetchWord (s : State) (nbits w : Nat) : State := presentFirst s nbits w

end Sys2Proof.Machine
end

