-- ==== Sys2Proof/Machine/HostBus.lean ====
section
/-! DEFINITION. Where the four registers stand in a host's address space: at CRC_BASE + 0 to CRC_BASE + 3
(20_memory.md R32). CRC_BASE is the platform's; no rule of the block reads it. Log entry 12. -/

namespace Sys2Proof.Machine

/-- The host address of a register (20_memory.md R32). -/
def hostAddress (r : PortReg) : Nat := Config.crcBase + (addrOfReg r).toNat

/-- The word of an access at a host address; a host address outside the block's four is none of its
registers (20_memory.md R32, 93_implementation_defined.md U9, U10). -/
def wordOfHostAccess (write : Bool) (address bytes data : Nat) : Except DecodeError TxWord :=
  if address < Config.crcBase then .error .addressOutOfRange
  else wordOfAccess write (address - Config.crcBase) bytes data

end Sys2Proof.Machine
end

