-- ==== Sys2Proof/Machine/Sequences.lean ====
section
/-! DEFINITION. The pseudo-instructions (30_encoding.md R57, 43_sequences.md): each the list of cycles a
host presents, and the host's own comparison of the read data it got back. The block knows nothing of
them (43_sequences.md R128). Log entry 14. -/

namespace Sys2Proof.Machine

/-- The cycle of one `UPD`. -/
def updCycle (b : Byte) : PortCycle := PortCycle.ofInstr (.upd b)

/-- One `UPD` per byte, in order. -/
def updAll (s : List Byte) : List PortCycle := s.map updCycle

/-- The two reads that take a checksum out, in frame order. -/
def readBoth : List PortCycle := [PortCycle.ofInstr .rlo, PortCycle.ofInstr .rhi]

/-- `CRC16.MSG s`: `INIT`, `UPD` of every byte, `RLO`, `RHI` (R120). -/
def msgCycles (s : List Byte) : List PortCycle := PortCycle.ofInstr .init :: (updAll s ++ readBoth)

/-- `CRC16.APPEND s`: the host places the two bytes it read after the message, in the order read (R122). -/
def appendFrame (s reads : List Byte) : List Byte := s ++ reads

/-- `CRC16.VERIFY.CMP f`: nothing for fewer than two bytes, else `CRC16.MSG` of all but the last two (R125). -/
def verifyCmpCycles (f : List Byte) : List PortCycle :=
  if f.length < 2 then [] else msgCycles (f.take (f.length - 2))

/-- The host's comparison: the two bytes read against the last two of the frame (R125). -/
def verifyCmpOk (f reads : List Byte) : Bool :=
  if f.length < 2 then false else reads == f.drop (f.length - 2)

/-- `CRC16.VERIFY.RES f`: `INIT`, `UPD` of every byte of the frame, `RCSR` (R126). -/
def verifyResCycles (f : List Byte) : List PortCycle :=
  PortCycle.ofInstr .init :: (updAll f ++ [PortCycle.ofInstr .rcsr])

/-- The host's test: bit 1 of the one byte read (R126). -/
def verifyResOk (reads : List Byte) : Bool :=
  match reads with
  | [t] => t.getLsbD 1
  | _ => false

end Sys2Proof.Machine
end

