-- ==== Sys2Proof/Safety.lean ====
section
/-! DEFINITION. What claims about runs are stated in: which bytes the register stands for, and the host
obligations of 70_reset_and_hazards.md R167 that a claim carries as premises. A run cannot be unsafe in
the sense of a fault: there is none (60_exceptions.md R146). -/

namespace Sys2Proof.Machine

/-- The cycle performs an `UPD`, `INIT` or reset: the three things that write `crc` (10_state.md R11). -/
def PortCycle.writesCrc (c : PortCycle) : Bool :=
  c.rst || (c.sel && (match decodeWord c.word with
    | .upd _ | .init => true
    | .wcsr _ | .wlo _ | .whi _ | .rdata | .rcsr | .rlo | .rhi => false))

/-- The bytes written to DATA since the last `INIT` or reset, after one more cycle (10_state.md R22). -/
def historyCycle (h : List Byte) (c : PortCycle) : List Byte :=
  if c.rst then []
  else if c.sel then
    match decodeWord c.word with
    | .upd b => h ++ [b]
    | .init => []
    | .wcsr _ | .wlo _ | .whi _ | .rdata | .rcsr | .rlo | .rhi => h
  else h

/-- The bytes written to DATA since the last `INIT` or reset, after a list of cycles. -/
def history (h : List Byte) (cs : List PortCycle) : List Byte := cs.foldl historyCycle h

/-- The register stands for the bytes h: the statement of 10_state.md R22 about one state. -/
def Explains (h : List Byte) (s : State) : Prop := s.crc = crc16Reg h

/-- No read is presented while `rst = 1`: the part of the host's obligation in 70_reset_and_hazards.md R167
that keeps `unspecified_8` out of what it observes. -/
def NoReadUnderReset (cs : List PortCycle) : Prop := ∀ c ∈ cs, c.rst = true → c.presentsRead = false

/-- The run neither faulted nor was refused. -/
def Performed (o : Host.Outcome State Fault Refusal) : Prop := ∃ t, o = .next t

end Sys2Proof.Machine
end

