-- ==== Sys2Proof/Certificates/Slice0/Obligations.lean ====
section
/-! DEFINITION. The statements for the provers, from the numbered rules of spec/. No statement says what
`rdata` is in a cycle that performs no read: that is a free value (log entry 3). -/

open Sys2Proof Sys2Proof.Machine

/-! ### The checksum functions (40_crc_core.md) -/

/-- 40_crc_core.md R71: the value, bit by bit as well, and the rule's examples. -/
def Obligations.ShiftStepIsTheConditionalShiftXor : Prop :=
  (∀ r : Reg16, (shiftStep r).toNat =
    if r.toNat % 2 = 1 then (r.toNat / 2) ^^^ 0xA001 else r.toNat / 2) ∧
  (∀ (r : Reg16) (i : Nat), i < 16 → (shiftStep r).getLsbD i =
    (r.getLsbD (i + 1) ^^ (r.getLsbD 0 && (i == 15 || i == 13 || i == 0)))) ∧
  shiftStep 0x0000 = 0x0000 ∧ shiftStep 0x0001 = 0xA001 ∧ shiftStep 0x0002 = 0x0001 ∧
  shiftStep 0x8000 = 0x4000 ∧ shiftStep 0xFFFF = 0xDFFE ∧ shiftStep 0xFFFE = 0x7FFF

/-- 40_crc_core.md R72: the XOR touches bits 7:0 alone and happens once, then exactly eight steps. -/
def Obligations.UpdateByteIsOneXorAndEightSteps : Prop :=
  (∀ (r : Reg16) (b : Byte), ∃ t0 : Reg16,
    (∀ i, i < 16 → t0.getLsbD i = (r.getLsbD i ^^ (decide (i < 8) && b.getLsbD i))) ∧
    updateByte r b = shiftStep^[8] t0) ∧
  updateByte 0xFFFF 0x01 = 0x807E

/-- 40_crc_core.md R73: the loop over the bytes in sequence order from 0xFFFF, and nothing after it. -/
def Obligations.Crc16RegRunsTheLoopFromAllOnes : Prop :=
  crc16Reg [] = 0xFFFF ∧ ∀ s : List Byte, crc16Reg s = s.foldl updateByte 0xFFFF

/-- 40_crc_core.md R74: two bytes, bits 7:0 first, bits 15:8 second. -/
def Obligations.ChecksumIsTwoBytesLowByteFirst : Prop :=
  (∀ s : List Byte, ∃ c0 c1 : Byte, crc16 s = [c0, c1] ∧
    c0.toNat = (crc16Reg s).toNat % 256 ∧ c1.toNat = (crc16Reg s).toNat / 256) ∧
  crc16 [] = [0xFF, 0xFF] ∧ crc16 [0x01] = [0x7E, 0x80]

/-- 40_crc_core.md R80: absorbing a message in two parts. -/
def Obligations.AbsorptionComposes : Prop :=
  (∀ s t : List Byte, crc16Reg (s ++ t) = absorbAll (crc16Reg s) t) ∧
  (∀ (s : List Byte) (b : Byte), crc16Reg (s ++ [b]) = updateByte (crc16Reg s) b)

/-- 40_crc_core.md R86: the values a model can be checked against. -/
def Obligations.CheckValuesOfTheChecksum : Prop :=
  shift8 0x0001 = 0xC0C1 ∧ updateByte 0x0000 0x01 = 0xC0C1 ∧ updateByte 0x0000 0x80 = 0xA001 ∧
  updateByte 0x0000 0xFF = 0x4040 ∧ updateByte 0x0000 0x00 = 0x0000 ∧ updateByte 0xFFFF 0x00 = 0x40BF ∧
  updateByte 0xFFFF 0xFF = 0x00FF ∧ crc16Reg [0xFF, 0xFF] = 0x0000 ∧ crc16Reg [0x00, 0x00] = 0xB001 ∧
  crc16Reg [0x31, 0x32, 0x33, 0x34, 0x35, 0x36, 0x37, 0x38, 0x39] = 0x4B37 ∧
  crc16 [0x31, 0x32, 0x33, 0x34, 0x35, 0x36, 0x37, 0x38, 0x39] = [0x37, 0x4B]

/-- 40_crc_core.md R81. -/
def Obligations.ShiftingIsLinearOverXor : Prop :=
  (∀ a b : Reg16, shiftStep (a ^^^ b) = shiftStep a ^^^ shiftStep b) ∧
  shiftStep 0x0000 = 0x0000 ∧
  (∀ a b : Reg16, shift8 (a ^^^ b) = shift8 a ^^^ shift8 b) ∧
  (∀ (r : Reg16) (b : Byte), updateByte r b = shift8 (r ^^^ zext16 b) ∧
    updateByte r b = shift8 r ^^^ shift8 (zext16 b))

/-- 40_crc_core.md R82: no two register values merge under a byte, and no two bytes from one register. -/
def Obligations.ShiftStepInverseAndBijectiveUpdate : Prop :=
  (∀ r : Reg16, shiftStepInv (shiftStep r) = r) ∧
  (∀ o : Reg16, shiftStep (shiftStepInv o) = o) ∧
  (∀ b : Byte, Function.Bijective fun r : Reg16 => updateByte r b) ∧
  (∀ r : Reg16, Function.Injective fun b : Byte => updateByte r b)

/-- 40_crc_core.md R83. -/
def Obligations.OwnLowByteShiftsTheRegisterDown : Prop :=
  (∀ r : Reg16, updateByte r (lowByte r) = zext16 (highByte r) ∧ updateByte r (lowByte r) = r >>> 8) ∧
  updateByte 0x1234 0x34 = 0x0012 ∧ updateByte 0x3B9C 0x9C = 0x003B

/-- 40_crc_core.md R84, both directions. -/
def Obligations.ResidueIsZeroExactlyForOwnBytes : Prop :=
  ∀ (r : Reg16) (c0 c1 : Byte),
    updateByte (updateByte r c0) c1 = 0x0000 ↔ c0 = lowByte r ∧ c1 = highByte r

/-- 40_crc_core.md R85, with the remark that a zero register alone implies two bytes. -/
def Obligations.FrameValidExactlyWhenResidueIsZero : Prop :=
  (∀ f : List Byte, frameValid f = true ↔ 2 ≤ f.length ∧ crc16Reg f = 0x0000) ∧
  (∀ f : List Byte, crc16Reg f = 0x0000 → 2 ≤ f.length)

/-- 40_crc_core.md R78: the comparison for two or more bytes, false below, the two-byte frame. -/
def Obligations.FrameValidComparesTheLastTwoBytes : Prop :=
  (∀ (s : List Byte) (c0 c1 : Byte), frameValid (s ++ [c0, c1]) = true ↔ crc16 s = [c0, c1]) ∧
  (∀ f : List Byte, f.length < 2 → frameValid f = false) ∧
  (∀ c0 c1 : Byte, frameValid [c0, c1] = true ↔ c0 = 0xFF ∧ c1 = 0xFF)

/-- 40_crc_core.md R79. -/
def Obligations.AppendedChecksumValidates : Prop :=
  ∀ s : List Byte, frameValid (s ++ crc16 s) = true

/-- 40_crc_core.md R87, with its example. -/
def Obligations.OnlyZeroBytesKeepAFrameValid : Prop :=
  (∀ (f : List Byte) (b : Byte), frameValid f = true → (frameValid (f ++ [b]) = true ↔ b = 0x00)) ∧
  (∀ (f : List Byte) (n : Nat), frameValid f = true →
    frameValid (f ++ List.replicate n 0x00) = true ∧ crc16Reg (f ++ List.replicate n 0x00) = 0x0000) ∧
  frameValid [0x01, 0x01, 0x00, 0x00, 0x00, 0x10, 0x3D, 0xC6] = true ∧
  frameValid [0x01, 0x01, 0x00, 0x00, 0x00, 0x10, 0x3D, 0xC6, 0x00] = true ∧
  frameValid [0x01, 0x01, 0x00, 0x00, 0x00, 0x10, 0x3D, 0xC6, 0x01] = false ∧
  crc16Reg [0x01, 0x01, 0x00, 0x00, 0x00, 0x10, 0x3D, 0xC6, 0x01] = 0xC0C1

/-- Derived from 40_crc_core.md R71 and R72. The remark of 41_write_ops.md R90 that a run of zero bytes is
seen from every register value but 0x0000 does not follow from them: 0xC001 is a second value that a zero
byte leaves as it was (log entry 15). -/
def Obligations.ShiftStepFixesExactlyTwoValues : Prop :=
  (∀ r : Reg16, shiftStep r = r ↔ r = 0x0000 ∨ r = 0xC001) ∧
  updateByte 0x0000 0x00 = 0x0000 ∧ updateByte 0xC001 0x00 = 0xC001

/-! ### The transaction word (30_encoding.md) -/

/-- 30_encoding.md R50: the layout as a number, and the fields read back. -/
def Obligations.WordIsWeAddrWdata : Prop :=
  (∀ (we : Bool) (a : PortAddr) (d : Byte),
    (mkWord we a d).toNat = we.toNat * 0x400 + a.toNat * 0x100 + d.toNat ∧
    (mkWord we a d).toNat ≤ 0x7FF ∧
    weOf (mkWord we a d) = we ∧ addrOf (mkWord we a d) = a ∧ wdataOf (mkWord we a d) = d) ∧
  (∀ w : TxWord, mkWord (weOf w) (addrOf w) (wdataOf w) = w)

/-- 30_encoding.md R52: a row's mask and match select exactly the words that decode to its operation, and
the rows have the sizes of the count check. -/
def Obligations.RowsSelectTheDecodedOperation : Prop :=
  (∀ w : TxWord,
    (w &&& 0x700 = 0x400 ↔ (decodeWord w).opcode = .upd) ∧
    (w &&& 0x701 = 0x501 ↔ (decodeWord w).opcode = .init) ∧
    (w &&& 0x701 = 0x500 ↔ (decodeWord w).opcode = .wcsr) ∧
    (w &&& 0x700 = 0x600 ↔ (decodeWord w).opcode = .wlo) ∧
    (w &&& 0x700 = 0x700 ↔ (decodeWord w).opcode = .whi) ∧
    (w &&& 0x700 = 0x000 ↔ (decodeWord w).opcode = .rdata) ∧
    (w &&& 0x700 = 0x100 ↔ (decodeWord w).opcode = .rcsr) ∧
    (w &&& 0x700 = 0x200 ↔ (decodeWord w).opcode = .rlo) ∧
    (w &&& 0x700 = 0x300 ↔ (decodeWord w).opcode = .rhi)) ∧
  (∀ (w : TxWord) (o : Opcode), o.selects w = true ↔ (decodeWord w).opcode = o) ∧
  (∀ o : Opcode, ((List.range 2048).filter fun n => o.selects (BitVec.ofNat 11 n)).length =
    if o = .init ∨ o = .wcsr then 128 else 256)

/-- 30_encoding.md R53: the pseudocode, field by field, and the remark that only UPD and INIT change state. -/
def Obligations.DecodeFollowsTheFields : Prop :=
  (∀ d : Byte,
    decodeWord (mkWord true 0 d) = .upd d ∧
    (d.getLsbD 0 = true → decodeWord (mkWord true 1 d) = .init) ∧
    (d.getLsbD 0 = false → decodeWord (mkWord true 1 d) = .wcsr d) ∧
    decodeWord (mkWord true 2 d) = .wlo d ∧
    decodeWord (mkWord true 3 d) = .whi d ∧
    decodeWord (mkWord false 0 d) = .rdata ∧
    decodeWord (mkWord false 1 d) = .rcsr ∧
    decodeWord (mkWord false 2 d) = .rlo ∧
    decodeWord (mkWord false 3 d) = .rhi) ∧
  (∀ (w : TxWord) (s : State), (decodeWord w).opcode ≠ .upd → decodeWord w ≠ .init →
    ∃ t, exec (decodeWord w) s = .next t ∧ t.crc = s.crc)

/-- Derived from 30_encoding.md R53 and R56: every well-formed instruction, every operand; hence no two
instructions share a canonical word, and the word is in the table's form for each. That WCSR v has a canonical
word of its own for every even v follows R56, where R55 and R92 read otherwise (log entry 17). -/
def Obligations.DecodeOfEncodeIsTheInstruction : Prop :=
  (∀ i : Instr, i.WellFormed → decodeWord (encode i) = i) ∧
  (∀ i j : Instr, i.WellFormed → j.WellFormed → encode i = encode j → i = j) ∧
  (∀ i : Instr, i.WellFormed → canonicalWord (encode i) = encode i)

/-- Derived from 30_encoding.md R55 and R56: encoding a decoded word gives its canonical word, and what is
decoded is well formed. The byte is replaced in a read and an INIT alone. UPD keeps its operand, and WCSR, WLO
and WHI keep their byte although the block ignores it, by the model's log entries 7 and 17: the canonical words
are those of R56, and R55 and R92 name 0x500 as the canonical WCSR. -/
def Obligations.EncodeOfDecodeIsTheCanonicalWord : Prop :=
  (∀ w : TxWord, encode (decodeWord w) = canonicalWord w) ∧
  (∀ w : TxWord, (decodeWord w).WellFormed) ∧
  (∀ w : TxWord, weOf w = false → canonicalWord w = w &&& 0x700) ∧
  (∀ w : TxWord, w &&& 0x701 = 0x501 → canonicalWord w = 0x501) ∧
  (∀ w : TxWord, weOf w = true → w &&& 0x701 ≠ 0x501 → canonicalWord w = w)

/-- 30_encoding.md R55: no word traps, and the bits of its table change nothing of what a word does. -/
def Obligations.IgnoredBitsHaveNoEffect : Prop :=
  ∀ (w w' : TxWord) (s : State),
    (∃ t, exec (decodeWord w) s = .next t) ∧
    (weOf w = false → w &&& 0x700 = w' &&& 0x700 → exec (decodeWord w) s = exec (decodeWord w') s) ∧
    (w &&& 0x700 = 0x500 → w &&& 0x701 = w' &&& 0x701 →
      exec (decodeWord w) s = exec (decodeWord w') s) ∧
    (0x600 ≤ w.toNat → w &&& 0x700 = w' &&& 0x700 → exec (decodeWord w) s = exec (decodeWord w') s)

/-- A sanity statement: words of table V6 of 95_test_vectors.md, written out, and what they decode to. -/
def Obligations.WordsWrittenOutDecodeRight : Prop :=
  decodeWord 0b00011111111 = .rdata ∧ decodeWord 0b00100000001 = .rcsr ∧
  decodeWord 0b01010100101 = .rlo ∧ decodeWord 0b01100000000 = .rhi ∧
  decodeWord 0b10000000001 = .upd 0x01 ∧ decodeWord 0b10100000010 = .wcsr 0x02 ∧
  decodeWord 0b10100000011 = .init ∧ decodeWord 0b11011111111 = .wlo 0xFF ∧
  decodeWord 0b11100000000 = .whi 0x00

/-- Derived from 20_memory.md R36 and 93_implementation_defined.md U9 (the names are the model's, log entry
9): what is no transaction word is rejected by name, and everything else is accepted. -/
def Obligations.OutsideAccessesAreRejectedByName : Prop :=
  (∀ n : Nat, 0x800 ≤ n → decodeNumber n = .error .notATransactionWord) ∧
  (∀ w : TxWord, decodeNumber w.toNat = .ok (decodeWord w)) ∧
  (∀ (we : Bool) (a n d : Nat), n ≠ 1 → wordOfAccess we a n d = .error .accessNotOneByte) ∧
  (∀ (we : Bool) (a d : Nat), 4 ≤ a → wordOfAccess we a 1 d = .error .addressOutOfRange) ∧
  (∀ (we : Bool) (a d : Nat), a < 4 → 256 ≤ d → wordOfAccess we a 1 d = .error .dataNotAByte) ∧
  (∀ (we : Bool) (a : PortAddr) (d : Byte), wordOfAccess we a.toNat 1 d.toNat = .ok (mkWord we a d))

/-- Derived from 30_encoding.md R56 and R57: a line of each form gives its canonical word, an odd operand of
WCSR is rejected, and the two disassembly examples. The form of a line and of a printed word, and that an
operand of 256 or more is rejected (R56 gives the range and not what happens outside it), are the model's
(log entry 16). -/
def Obligations.AssemblerEmitsTheCanonicalWords : Prop :=
  (∀ b : Byte, assembleLine "UPD" [b.toNat] = some (0x400 + b.setWidth 11)) ∧
  (∀ v : Byte, assembleLine "WCSR" [v.toNat] =
    if v.toNat % 2 = 0 then some (0x500 + v.setWidth 11) else none) ∧
  (∀ v : Byte, assembleLine "WLO" [v.toNat] = some (0x600 + v.setWidth 11)) ∧
  (∀ v : Byte, assembleLine "WHI" [v.toNat] = some (0x700 + v.setWidth 11)) ∧
  (∀ (m : String) (n : Nat), 256 ≤ n → assembleLine m [n] = none) ∧
  assembleLine "INIT" [] = some 0x501 ∧ assembleLine "RDATA" [] = some 0x000 ∧
  assembleLine "RCSR" [] = some 0x100 ∧ assembleLine "RLO" [] = some 0x200 ∧
  assembleLine "RHI" [] = some 0x300 ∧ assembleLine "NOP" [] = some 0x500 ∧
  disassemble 0x2A5 = (.rlo, some 0xA5) ∧ disassemble 0x5FF = (.init, some 0xFF) ∧
  printWord 0x2A5 = "RLO ; wdata=0xA5 ignored".toList ∧ printWord 0x5FF = "INIT ; wdata=0xFF".toList

/-! ### The nine operations (41_write_ops.md, 42_read_ops.md): encoding, effect, frame -/

/-- 41_write_ops.md R90 but for its remark on runs of zero bytes (log entry 15): for every byte and every
register value, with the rule's other corner cases. -/
def Obligations.UpdAbsorbsItsByte : Prop :=
  (∀ b : Byte, decodeWord (0x400 + b.setWidth 11) = .upd b) ∧
  (∀ (b : Byte) (s : State), ∃ t, exec (.upd b) s = .next t ∧ t.crc = updateByte s.crc b ∧
    regRead .csr t.crc = (if updateByte s.crc b = 0x0000 then 0x02 else 0x00) ∧
    t.port = s.port ∧ t.observed = s.observed) ∧
  (∀ s : State, ∃ t, exec (.upd (lowByte s.crc)) s = .next t ∧ t.crc = s.crc >>> 8) ∧
  updateByte 0xFFFF 0x00 = 0x40BF ∧ updateByte 0x0000 0x00 = 0x0000 ∧ updateByte 0xFFFF 0x01 = 0x807E

/-- 41_write_ops.md R91: every one of its words, whatever `crc` held; twice is the same as once. -/
def Obligations.InitSetsTheRegisterToAllOnes : Prop :=
  (∀ w : TxWord, w &&& 0x701 = 0x501 → decodeWord w = .init) ∧
  (∀ s : State, ∃ t u, exec .init s = .next t ∧ t.crc = 0xFFFF ∧ regRead .csr t.crc = 0x00 ∧
    t.port = s.port ∧ t.observed = s.observed ∧ exec .init t = .next u ∧ u.crc = t.crc)

/-- 41_write_ops.md R92, R93, R94: accepted, and nothing changes; every register reads as before. -/
def Obligations.IgnoredWritesChangeNothing : Prop :=
  (∀ v : Byte, v.getLsbD 0 = false → decodeWord (0x500 + v.setWidth 11) = .wcsr v) ∧
  (∀ v : Byte, decodeWord (0x600 + v.setWidth 11) = .wlo v) ∧
  (∀ v : Byte, decodeWord (0x700 + v.setWidth 11) = .whi v) ∧
  (∀ (v : Byte) (s : State), v.getLsbD 0 = false → ∃ t, exec (.wcsr v) s = .next t ∧ t.crc = s.crc ∧
    (∀ r, regRead r t.crc = regRead r s.crc) ∧ t.port = s.port ∧ t.observed = s.observed) ∧
  (∀ (v : Byte) (s : State), ∃ t, exec (.wlo v) s = .next t ∧ t.crc = s.crc ∧
    (∀ r, regRead r t.crc = regRead r s.crc) ∧ t.port = s.port ∧ t.observed = s.observed) ∧
  (∀ (v : Byte) (s : State), ∃ t, exec (.whi v) s = .next t ∧ t.crc = s.crc ∧
    (∀ r, regRead r t.crc = regRead r s.crc) ∧ t.port = s.port ∧ t.observed = s.observed)

/-- 42_read_ops.md R110. -/
def Obligations.RdataReturnsZero : Prop :=
  (∀ w : TxWord, w &&& 0x700 = 0x000 → decodeWord w = .rdata) ∧
  (∀ s : State, ∃ t, exec .rdata s = .next t ∧ t.rdata = 0x00 ∧ t.crc = s.crc ∧ t.port = s.port ∧
    t.observed = s.observed ++ [0x00]) ∧
  (∀ (b : Byte) (s t : State), exec (.upd b) s = .next t → ∃ u, exec .rdata t = .next u ∧ u.rdata = 0x00)

/-- 42_read_ops.md R111: 0x02 or 0x00, also directly after an INIT, and the read clears nothing. -/
def Obligations.RcsrReturnsTheZeroFlagInBitOne : Prop :=
  (∀ w : TxWord, w &&& 0x700 = 0x100 → decodeWord w = .rcsr) ∧
  (∀ s : State, ∃ t, exec .rcsr s = .next t ∧
    t.rdata = (if s.crc = 0x0000 then 0x02 else 0x00) ∧ t.crc = s.crc ∧ t.port = s.port ∧
    t.observed = s.observed ++ [if s.crc = 0x0000 then 0x02 else 0x00] ∧
    ∃ u, exec .rcsr t = .next u ∧ u.rdata = t.rdata) ∧
  (∀ s t : State, exec .init s = .next t → ∃ u, exec .rcsr t = .next u ∧ u.rdata = 0x00) ∧
  (∃ u, exec .rcsr State.reset = .next u ∧ u.rdata = 0x00) ∧
  crc16Reg [0xFF, 0xFF] = 0x0000

/-- 42_read_ops.md R112: the low byte, and 0xFF with no UPD since INIT or reset: directly after either, in
every state whose register stands for no bytes, and over every run from a reset or INIT on in which no UPD
is performed. -/
def Obligations.RloReturnsTheLowByte : Prop :=
  (∀ w : TxWord, w &&& 0x700 = 0x200 → decodeWord w = .rlo) ∧
  (∀ s : State, ∃ t, exec .rlo s = .next t ∧ t.rdata.toNat = s.crc.toNat % 256 ∧ t.crc = s.crc ∧
    t.port = s.port ∧ t.observed = s.observed ++ [t.rdata]) ∧
  (∀ s t : State, exec .init s = .next t → ∃ u, exec .rlo t = .next u ∧ u.rdata = 0xFF) ∧
  (∃ u, exec .rlo State.reset = .next u ∧ u.rdata = 0xFF) ∧
  (∀ s : State, Explains [] s → ∃ u, exec .rlo s = .next u ∧ u.rdata = 0xFF) ∧
  (∀ (before after : List PortCycle) (c : PortCycle) (s : State), s.port = before ++ c :: after →
    (c.rst = true ∨ (c.sel = true ∧ decodeWord c.word = .init)) →
    (∀ d ∈ after, d.rst = false → d.sel = true → (decodeWord d.word).opcode ≠ .upd) →
    ∃ t u, Host.Core.run Sys2Proof.core (before ++ c :: after).length s = .next t ∧
      exec .rlo t = .next u ∧ u.rdata = 0xFF) ∧
  (∀ s : State, s.crc = 0x3B9C → ∃ u, exec .rlo s = .next u ∧ u.rdata = 0x9C)

/-- 42_read_ops.md R113: the high byte, and the pair as the checksum of what was absorbed, in either
order of reading. -/
def Obligations.RhiReturnsTheHighByte : Prop :=
  (∀ w : TxWord, w &&& 0x700 = 0x300 → decodeWord w = .rhi) ∧
  (∀ s : State, ∃ t, exec .rhi s = .next t ∧ t.rdata.toNat = s.crc.toNat / 256 ∧ t.crc = s.crc ∧
    t.port = s.port ∧ t.observed = s.observed ++ [t.rdata]) ∧
  (∀ (h : List Byte) (s : State), Explains h s →
    (∃ t u, exec .rlo s = .next t ∧ exec .rhi t = .next u ∧ [t.rdata, u.rdata] = crc16 h) ∧
    (∃ t u, exec .rhi s = .next t ∧ exec .rlo t = .next u ∧ [u.rdata, t.rdata] = crc16 h)) ∧
  (∀ s : State, s.crc = 0x3B9C → ∃ u, exec .rhi s = .next u ∧ u.rdata = 0x3B)

/-! ### The step (60_exceptions.md, 70_reset_and_hazards.md) -/

/-- 60_exceptions.md R140: no transaction in any state stops the block, nor does any cycle of the port. -/
def Obligations.EveryTransactionCompletes : Prop :=
  (∀ (i : Instr) (s : State), ∃ t, exec i s = .next t) ∧ (∀ s : State, ∃ t, step s = .next t)

/-- Derived from 30_encoding.md R51, R53 and 10_state.md R13: a step is exec of the decoded word, with the
cycle taken off the port. The last clause is about the model's own withFetchWord (log entry 10). -/
def Obligations.StepPerformsTheDecodedTransaction : Prop :=
  (∀ (s : State) (c : PortCycle) (rest : List PortCycle),
    s.port = c :: rest → c.rst = false → c.sel = true →
    step s = exec (decodeWord (mkWord c.we c.addr c.wdata)) { s with port := rest }) ∧
  (∀ (s : State) (w : TxWord) (rest : List PortCycle), s.port = PortCycle.ofWord w :: rest →
    step s = exec (decodeWord w) { s with port := rest }) ∧
  (∀ (s : State) (w : TxWord), step (s.withFetchWord 16 w.toNat) = exec (decodeWord w) s)

/-- 70_reset_and_hazards.md R160: whatever is presented with it, reset leaves 0xFFFF and the transaction
is lost; the effect on `crc` is that of INIT. -/
def Obligations.ResetWinsAndLeavesAllOnes : Prop :=
  ∀ (s : State) (c : PortCycle) (rest : List PortCycle), s.port = c :: rest → c.rst = true →
    (∃ t, step s = .next t ∧ t.crc = 0xFFFF ∧ t.port = rest ∧
      (c.presentsRead = false → t.observed = s.observed)) ∧
    (∀ t u, step s = .next t → exec .init s = .next u → t.crc = u.crc)

/-- 10_state.md R20: the table of values after reset, for State.reset and after every reset cycle; before
it `crc` is POWERUP_CRC, any value. -/
def Obligations.StateAfterReset : Prop :=
  (∀ t : State, (t = State.reset ∨ ∃ (s : State) (c : PortCycle) (rest : List PortCycle),
      s.port = c :: rest ∧ c.rst = true ∧ step s = .next t) →
    t.crc = 0xFFFF ∧ zeroFlag t.crc = false ∧ regRead .crcLo t.crc = 0xFF ∧
    regRead .crcHi t.crc = 0xFF ∧ regRead .csr t.crc = 0x00 ∧ regRead .data t.crc = 0x00) ∧
  (∀ v : Reg16, (State.powerUp v).crc = v)

/-- 70_reset_and_hazards.md R161: reads return the views of the one unspecified value, UPD acts on it, INIT
and reset replace it; for every value it may have. -/
def Obligations.BeforeTheFirstResetTheRegisterIsAnyValue : Prop :=
  ∀ v : Reg16, (State.powerUp v).crc = v ∧
    (∃ t u, exec .rlo (State.powerUp v) = .next t ∧ t.rdata = lowByte v ∧
      exec .rlo t = .next u ∧ u.rdata = lowByte v) ∧
    (∃ t, exec .rhi (State.powerUp v) = .next t ∧ t.rdata = highByte v) ∧
    (∃ t, exec .rcsr (State.powerUp v) = .next t ∧ t.rdata = if v = 0x0000 then 0x02 else 0x00) ∧
    (∀ b, ∃ t, exec (.upd b) (State.powerUp v) = .next t ∧ t.crc = updateByte v b) ∧
    (∃ t, exec .init (State.powerUp v) = .next t ∧ t.crc = 0xFFFF) ∧
    (∃ t, step ((State.powerUp v).present [PortCycle.resetOnly]) = .next t ∧ t.crc = 0xFFFF)

/-- 10_state.md R11: UPD, INIT and reset write `crc`, each as the rule says, and no other cycle does; only
UPD, RLO, RHI and RCSR read it. -/
def Obligations.OnlyUpdInitAndResetWriteTheRegister : Prop :=
  (∀ s t : State, step s = .next t →
    (s.port = [] → t.crc = s.crc) ∧
    (∀ c rest, s.port = c :: rest →
      (c.rst = true → t.crc = 0xFFFF) ∧
      (c.rst = false → c.sel = false → t.crc = s.crc) ∧
      (c.rst = false → c.sel = true →
        (∀ b, decodeWord c.word = .upd b → t.crc = updateByte s.crc b) ∧
        (decodeWord c.word = .init → t.crc = 0xFFFF) ∧
        ((decodeWord c.word).opcode ≠ .upd → decodeWord c.word ≠ .init → t.crc = s.crc)))) ∧
  (∀ (i : Instr) (s t t' : State) (v : Reg16),
    i.opcode ≠ .upd → i ≠ .rlo → i ≠ .rhi → i ≠ .rcsr →
    exec i s = .next t → exec i { s with crc := v } = .next t' →
    t'.observed = t.observed ∧ (i = .rdata → t'.rdata = t.rdata) ∧ (i = .init → t'.crc = t.crc))

/-- 10_state.md R14: bit 1 of CSR is 1 exactly for a zero register, 0 after reset, and moves only with a
cycle that writes `crc`. -/
def Obligations.ZeroFlagFollowsTheRegister : Prop :=
  (∀ s : State, (regRead .csr s.crc).getLsbD 1 = true ↔ s.crc = 0x0000) ∧
  (regRead .csr State.reset.crc).getLsbD 1 = false ∧
  (∀ (s t : State), (∀ c ∈ s.port.head?, c.writesCrc = false) → step s = .next t →
    (regRead .csr t.crc).getLsbD 1 = (regRead .csr s.crc).getLsbD 1)

/-- 20_memory.md R38: a read changes no register's read value and may be repeated; INIT and the ignored
writes are idempotent; UPD is not. -/
def Obligations.OnlyDataWritesAreNotIdempotent : Prop :=
  (∀ (i : Instr) (s t : State), i.isRead = true → exec i s = .next t →
    (∀ r, regRead r t.crc = regRead r s.crc) ∧ t.crc = s.crc ∧
    ∃ u, exec i t = .next u ∧ u.rdata = t.rdata ∧ u.crc = t.crc) ∧
  (∀ (i : Instr) (s t u : State), i.WellFormed → i.opcode ≠ .upd →
    exec i s = .next t → exec i t = .next u → u.crc = t.crc) ∧
  (∀ (i : Instr) (s t : State), i.WellFormed → i.opcode ≠ .upd → i ≠ .init → exec i s = .next t →
    t.crc = s.crc) ∧
  (∃ (b : Byte) (s t u : State), exec (.upd b) s = .next t ∧ exec (.upd b) t = .next u ∧ u.crc ≠ t.crc)

/-- 70_reset_and_hazards.md R168: the cycle behaviour, in the rule's own case split over the signals. -/
def Obligations.CycleBehaviourOfThePort : Prop :=
  ∀ (s : State) (c : PortCycle) (rest : List PortCycle), s.port = c :: rest →
    ∃ t, step s = .next t ∧ t.port = rest ∧
      (t.crc = if c.rst = true then 0xFFFF
        else if c.sel = true ∧ c.we = true then
          (if c.addr = 0 then updateByte s.crc c.wdata
          else if c.addr = 1 ∧ c.wdata.getLsbD 0 = true then 0xFFFF
          else s.crc)
        else s.crc) ∧
      (c.rst = false → c.sel = true → c.we = false →
        (c.addr = 0 → t.rdata = 0x00) ∧
        (c.addr = 1 → t.rdata = if s.crc = 0x0000 then 0b00000010 else 0b00000000) ∧
        (c.addr = 2 → t.rdata = s.crc.extractLsb' 0 8) ∧
        (c.addr = 3 → t.rdata = s.crc.extractLsb' 8 8))

/-- Derived from 00_scope.md R8 and 10_state.md R15: a performed access is RegRead or RegWrite of the register
its address names. -/
def Obligations.AccessesAreRegReadAndRegWrite : Prop :=
  (∀ (s : State) (r : PortReg) (v : Byte) (rest : List PortCycle),
    s.port = PortCycle.ofWord (mkWord true (addrOfReg r) v) :: rest →
    ∃ t, step s = .next t ∧ t.port = rest ∧ t.crc = regWrite r v s.crc ∧ t.observed = s.observed) ∧
  (∀ (s : State) (r : PortReg) (v : Byte) (rest : List PortCycle),
    s.port = PortCycle.ofWord (mkWord false (addrOfReg r) v) :: rest →
    ∃ t, step s = .next t ∧ t.port = rest ∧ t.crc = s.crc ∧ t.rdata = regRead r s.crc ∧
      t.observed = s.observed ++ [regRead r s.crc])

/-- 70_reset_and_hazards.md R171: the step function of a transaction word; "none" is that the host
observes nothing new. The clause for the reset event is the last one. -/
def Obligations.StepFunctionOnWords : Prop :=
  (∀ (s : State) (w : TxWord) (rest : List PortCycle), s.port = PortCycle.ofWord w :: rest →
    ∃ t, step s = .next t ∧ t.port = rest ∧
      match decodeWord w with
      | .upd b => t.crc = updateByte s.crc b ∧ t.observed = s.observed
      | .init => t.crc = 0xFFFF ∧ t.observed = s.observed
      | .wcsr _ => t.crc = s.crc ∧ t.observed = s.observed
      | .wlo _ => t.crc = s.crc ∧ t.observed = s.observed
      | .whi _ => t.crc = s.crc ∧ t.observed = s.observed
      | .rdata => t.crc = s.crc ∧ t.observed = s.observed ++ [0x00]
      | .rcsr => t.crc = s.crc ∧ t.observed = s.observed ++ [if s.crc = 0x0000 then 0x02 else 0x00]
      | .rlo => t.crc = s.crc ∧ t.observed = s.observed ++ [lowByte s.crc]
      | .rhi => t.crc = s.crc ∧ t.observed = s.observed ++ [highByte s.crc]) ∧
  (∀ (s : State) (rest : List PortCycle), s.port = PortCycle.resetOnly :: rest →
    ∃ t, step s = .next t ∧ t.port = rest ∧ t.crc = 0xFFFF ∧ t.observed = s.observed)

/-- 20_memory.md R32: the four registers at CRC_BASE + 0 to CRC_BASE + 3, for every base address. -/
def Obligations.RegistersStandAtTheBaseAddress : Prop :=
  hostAddress .data = Config.crcBase ∧ hostAddress .csr = Config.crcBase + 1 ∧
  hostAddress .crcLo = Config.crcBase + 2 ∧ hostAddress .crcHi = Config.crcBase + 3 ∧
  (∀ (we : Bool) (r : PortReg) (d : Byte),
    wordOfHostAccess we (hostAddress r) 1 d.toNat = .ok (mkWord we (addrOfReg r) d)) ∧
  (∀ (we : Bool) (r : PortReg) (d : Byte), regOfAddr (addrOf (mkWord we (addrOfReg r) d)) = r)

/-! ### Runs (20_memory.md, 43_sequences.md, 70_reset_and_hazards.md) -/

/-- Derived from 60_exceptions.md R140 and 20_memory.md R39: a run of any length goes on, takes the cycles
off the port in order, and observes one byte for each read presented. That a read presented under reset is
counted is the model's reading of 60_exceptions.md R143 (log entry 5). -/
def Obligations.RunsGoOnInPresentedOrder : Prop :=
  ∀ (k : Nat) (s : State), ∃ t, Host.Core.run Sys2Proof.core k s = .next t ∧
    t.port = s.port.drop k ∧
    ∃ new : List Byte, t.observed = s.observed ++ new ∧
      new.length = ((s.port.take k).filter PortCycle.presentsRead).length

/-- 20_memory.md R39: the value a read returns is the one the register left by all earlier transactions
determines, whatever is presented after it. -/
def Obligations.ReadSeesExactlyTheEarlierTransactions : Prop :=
  ∀ (s : State) (before after after' : List PortCycle) (c : PortCycle),
    c.rst = false → c.sel = true → c.we = false →
    ∃ t u u', Host.Core.run Sys2Proof.core before.length { s with port := before ++ c :: after } = .next t ∧
      Host.Core.run Sys2Proof.core (before.length + 1) { s with port := before ++ c :: after } = .next u ∧
      Host.Core.run Sys2Proof.core (before.length + 1) { s with port := before ++ c :: after' } = .next u' ∧
      t.port = c :: after ∧ u.port = after ∧
      u.rdata = regRead (regOfAddr c.addr) t.crc ∧ u'.rdata = u.rdata

/-- 10_state.md R22, one step: the register stands for the bytes since the last INIT or reset. An
invariant with the byte sequence beside it. -/
def Obligations.StepKeepsTheRegisterExplained : Prop :=
  ∀ (h : List Byte) (s : State), Explains h s → ∃ t, step s = .next t ∧
    Explains (match s.port with | [] => h | c :: _ => historyCycle h c) t

/-- The invariant holds at reset, with no byte absorbed. -/
def Obligations.ResetIsExplainedByNoBytes : Prop := Explains [] State.reset

/-- 10_state.md R22, over a run: from the first reset or INIT onwards, whatever `crc` held before it. -/
def Obligations.RegisterIsAFunctionOfTheBytesSinceInit : Prop :=
  (∀ (cs : List PortCycle) (s : State) (h : List Byte), s.port = cs → Explains h s →
    ∃ t, Host.Core.run Sys2Proof.core cs.length s = .next t ∧ t.crc = crc16Reg (history h cs)) ∧
  (∀ (before after : List PortCycle) (c : PortCycle) (s : State), s.port = before ++ c :: after →
    (c.rst = true ∨ (c.sel = true ∧ decodeWord c.word = .init)) →
    ∃ t, Host.Core.run Sys2Proof.core (before ++ c :: after).length s = .next t ∧
      t.crc = crc16Reg (history [] after))

/-- 70_reset_and_hazards.md R165: an idle cycle changes nothing, and idle cycles anywhere among the others
change neither the register nor what the host observes. The premise of the last clause is the host's
obligation of R167. -/
def Obligations.IdleCyclesMayBeLeftOut : Prop :=
  (∀ (s : State) (c : PortCycle) (rest : List PortCycle), s.port = c :: rest →
    c.rst = false → c.sel = false →
    ∃ t, step s = .next t ∧ t.crc = s.crc ∧ t.port = rest ∧ t.observed = s.observed) ∧
  (∀ (cs : List PortCycle) (s : State), ∃ t u,
    Host.Core.run Sys2Proof.core cs.length { s with port := cs } = .next t ∧
    Host.Core.run Sys2Proof.core (cs.filter fun c => !c.isIdle).length
      { s with port := cs.filter fun c => !c.isIdle } = .next u ∧
    t.crc = u.crc ∧ (NoReadUnderReset cs → t.observed = u.observed))

/-- Derived from 20_memory.md R38 and 70_reset_and_hazards.md R164: only the cycles that write `crc` matter
for it, so a second party's reads are harmless and any other cycle may be dropped. -/
def Obligations.CyclesThatDoNotWriteMayBeDropped : Prop :=
  ∀ (cs : List PortCycle) (s : State), ∃ t u,
    Host.Core.run Sys2Proof.core cs.length { s with port := cs } = .next t ∧
    Host.Core.run Sys2Proof.core (cs.filter PortCycle.writesCrc).length
      { s with port := cs.filter PortCycle.writesCrc } = .next u ∧
    t.crc = u.crc

/-- Derived from 70_reset_and_hazards.md R170 and 10_state.md R12, R21: two runs that start from one
register value and see the same cycles observe the same, whatever else differs (the free values drawn, what
`rdata` carried, what was observed before): the register is the only state of the block. -/
def Obligations.RunsWithEqualRegistersObserveTheSame : Prop :=
  ∀ (k : Nat) (s s' : State), s.crc = s'.crc → s.port = s'.port → NoReadUnderReset s.port →
    ∃ t t' new, Host.Core.run Sys2Proof.core k s = .next t ∧ Host.Core.run Sys2Proof.core k s' = .next t' ∧
      t.crc = t'.crc ∧ t.observed = s.observed ++ new ∧ t'.observed = s'.observed ++ new

/-- 43_sequences.md R120: from every register value, with the length of the expansion and the flag. -/
def Obligations.MsgReturnsTheChecksum : Prop :=
  ∀ (m : List Byte) (s : State) (rest : List PortCycle), s.port = msgCycles m ++ rest →
    (msgCycles m).length = m.length + 3 ∧
    ∃ t, Host.Core.run Sys2Proof.core (msgCycles m).length s = .next t ∧
      t.crc = crc16Reg m ∧ t.observed = s.observed ++ crc16 m ∧ t.port = rest ∧
      zeroFlag t.crc = (crc16Reg m == 0x0000)

/-- 43_sequences.md R121: INIT and two reads, and right after reset the two reads alone. -/
def Obligations.EmptyMessageReadsAllOnes : Prop :=
  (∀ (s : State) (rest : List PortCycle),
    s.port = [PortCycle.ofWord 0x501, PortCycle.ofWord 0x200, PortCycle.ofWord 0x300] ++ rest →
    ∃ t, Host.Core.run Sys2Proof.core 3 s = .next t ∧ t.observed = s.observed ++ [0xFF, 0xFF] ∧
      t.port = rest) ∧
  (msgCycles [] = [PortCycle.ofWord 0x501, PortCycle.ofWord 0x200, PortCycle.ofWord 0x300]) ∧
  (∀ rest : List PortCycle, ∃ t, Host.Core.run Sys2Proof.core 2 (State.reset.present (readBoth ++ rest)) = .next t ∧
    t.observed = [0xFF, 0xFF] ∧ t.port = rest)

/-- 43_sequences.md R122: what the host builds from the two bytes read is the message with its checksum,
and it is valid. -/
def Obligations.AppendBuildsAValidFrame : Prop :=
  ∀ (m : List Byte) (s : State) (rest : List PortCycle), s.port = msgCycles m ++ rest →
    ∃ t reads, Host.Core.run Sys2Proof.core (msgCycles m).length s = .next t ∧
      t.observed = s.observed ++ reads ∧ appendFrame m reads = m ++ crc16 m ∧
      frameValid (appendFrame m reads) = true

/-- 43_sequences.md R124: a checksum read on the way, and the one of the whole message. -/
def Obligations.PrefixChecksumsCanBeReadOnTheWay : Prop :=
  ∀ (a b : List Byte) (s : State) (rest : List PortCycle),
    s.port = msgCycles a ++ (updAll b ++ readBoth) ++ rest →
    ∃ t, Host.Core.run Sys2Proof.core (msgCycles a ++ (updAll b ++ readBoth)).length s = .next t ∧
      t.observed = s.observed ++ crc16 a ++ crc16 (a ++ b) ∧ t.crc = crc16Reg (a ++ b) ∧ t.port = rest

/-- 43_sequences.md R125: the host's comparison gives the validity of the frame, for every length; for
two or more bytes the expansion has one transaction more than the frame has bytes. -/
def Obligations.VerifyByComparisonDecidesValidity : Prop :=
  ∀ (f : List Byte) (s : State) (rest : List PortCycle), s.port = verifyCmpCycles f ++ rest →
    (verifyCmpCycles f).length = (if f.length < 2 then 0 else f.length + 1) ∧
    ∃ t reads, Host.Core.run Sys2Proof.core (verifyCmpCycles f).length s = .next t ∧
      t.observed = s.observed ++ reads ∧ t.port = rest ∧ verifyCmpOk f reads = frameValid f

/-- 43_sequences.md R126: the residue test gives the same truth value, for every length. -/
def Obligations.VerifyByResidueDecidesValidity : Prop :=
  ∀ (f : List Byte) (s : State) (rest : List PortCycle), s.port = verifyResCycles f ++ rest →
    (verifyResCycles f).length = f.length + 2 ∧
    ∃ t reads, Host.Core.run Sys2Proof.core (verifyResCycles f).length s = .next t ∧
      t.observed = s.observed ++ reads ∧ t.port = rest ∧ t.crc = crc16Reg f ∧
      verifyResOk reads = frameValid f ∧ (verifyResOk reads = true ↔ reads = [0x02])

/-- 70_reset_and_hazards.md R163: a message fed after an earlier one without INIT gives the register of
both together; INIT directly after reset is harmless. -/
def Obligations.MissingInitSumsBothMessages : Prop :=
  (∀ (p m : List Byte) (s : State) (rest : List PortCycle), Explains p s → s.port = updAll m ++ rest →
    ∃ t, Host.Core.run Sys2Proof.core m.length s = .next t ∧ t.crc = crc16Reg (p ++ m) ∧ t.port = rest ∧
      t.observed = s.observed) ∧
  (∃ t, exec .init State.reset = .next t ∧ t.crc = State.reset.crc)
end

