-- ==== Sys2Proof/Laws/Crc.lean ====
section
/-! SUPPORT. The small lemmas of the checksum functions and of the byte helpers. -/

namespace Sys2Proof.Machine

/-- Bit 0 decides: the plain shift. -/
theorem shiftStep_of_even {r : Reg16} (h : r.getLsbD 0 = false) : shiftStep r = r >>> 1 := by
  rw [shiftStep, h]; rfl

/-- Bit 0 decides: the shift and the XOR. -/
theorem shiftStep_of_odd {r : Reg16} (h : r.getLsbD 0 = true) :
    shiftStep r = (r >>> 1) ^^^ Config.feedback := by
  rw [shiftStep, h]; rfl

@[simp] theorem shiftStep_zero : shiftStep 0x0000#16 = 0x0000#16 := by decide

@[simp] theorem absorbAll_nil (r : Reg16) : absorbAll r [] = r := rfl

@[simp] theorem absorbAll_cons (r : Reg16) (b : Byte) (s : List Byte) :
    absorbAll r (b :: s) = absorbAll (updateByte r b) s := rfl

@[simp] theorem zext16_zero : zext16 0x00#8 = 0x0000#16 := by decide

/-- Bits of a zero-extended byte. -/
theorem zext16_getLsbD (b : Byte) (i : Nat) : (zext16 b).getLsbD i = b.getLsbD i := by
  simp only [zext16, BitVec.getLsbD_setWidth, Bool.and_eq_right_iff_imp, decide_eq_true_eq]
  intro h
  have := BitVec.lt_of_getLsbD h
  omega

/-- Bits of the low byte. -/
theorem lowByte_getLsbD (r : Reg16) (i : Nat) :
    (lowByte r).getLsbD i = (decide (i < 8) && r.getLsbD i) := by
  simp [lowByte, BitVec.getLsbD_extractLsb']

/-- Bits of the high byte. -/
theorem highByte_getLsbD (r : Reg16) (i : Nat) :
    (highByte r).getLsbD i = (decide (i < 8) && r.getLsbD (8 + i)) := by
  simp [highByte, BitVec.getLsbD_extractLsb']

end Sys2Proof.Machine
end

