-- ==== Sys2Proof/Laws/State.lean ====
section
/-! SUPPORT. One lemma per field per update of the state, true by rfl: later proofs rewrite with these and
never unfold a record update. -/

namespace Sys2Proof.Machine

section
variable (s : State) (v : Reg16) (b : Byte)

@[simp] theorem State.setCrc_crc : (s.setCrc v).crc = v := rfl
@[simp] theorem State.setCrc_rdata : (s.setCrc v).rdata = s.rdata := rfl
@[simp] theorem State.setCrc_port : (s.setCrc v).port = s.port := rfl
@[simp] theorem State.setCrc_observed : (s.setCrc v).observed = s.observed := rfl
@[simp] theorem State.setCrc_draws : (s.setCrc v).draws = s.draws := rfl

@[simp] theorem State.driveRead_crc : (s.driveRead b).crc = s.crc := rfl
@[simp] theorem State.driveRead_rdata : (s.driveRead b).rdata = b := rfl
@[simp] theorem State.driveRead_port : (s.driveRead b).port = s.port := rfl
@[simp] theorem State.driveRead_observed : (s.driveRead b).observed = s.observed ++ [b] := rfl
@[simp] theorem State.driveRead_draws : (s.driveRead b).draws = s.draws := rfl

@[simp] theorem State.driveUnspecified_crc : s.driveUnspecified.crc = s.crc := rfl
@[simp] theorem State.driveUnspecified_port : s.driveUnspecified.port = s.port := rfl
@[simp] theorem State.driveUnspecified_observed : s.driveUnspecified.observed = s.observed := rfl
@[simp] theorem State.driveUnspecified_draws : s.driveUnspecified.draws = s.draws + 1 := rfl

@[simp] theorem State.sampleRdata_crc : s.sampleRdata.crc = s.crc := rfl
@[simp] theorem State.sampleRdata_rdata : s.sampleRdata.rdata = s.rdata := rfl
@[simp] theorem State.sampleRdata_port : s.sampleRdata.port = s.port := rfl
@[simp] theorem State.sampleRdata_observed : s.sampleRdata.observed = s.observed ++ [s.rdata] := rfl
@[simp] theorem State.sampleRdata_draws : s.sampleRdata.draws = s.draws := rfl

end

section
variable (s : State) (cs : List PortCycle)

@[simp] theorem State.present_crc : (s.present cs).crc = s.crc := rfl
@[simp] theorem State.present_rdata : (s.present cs).rdata = s.rdata := rfl
@[simp] theorem State.present_port : (s.present cs).port = s.port ++ cs := rfl
@[simp] theorem State.present_observed : (s.present cs).observed = s.observed := rfl
@[simp] theorem State.present_draws : (s.present cs).draws = s.draws := rfl

end

end Sys2Proof.Machine
end

