-- ==== Sys2Proof/Laws/Ops.lean ====
section
/-! SUPPORT. What each cycle operation does, once, field by field; and the word of a cycle. -/

namespace Sys2Proof.Machine

@[simp] theorem idleCycle_crc (s : State) : (idleCycle s).crc = s.crc := rfl
@[simp] theorem idleCycle_port (s : State) : (idleCycle s).port = s.port := rfl
@[simp] theorem idleCycle_observed (s : State) : (idleCycle s).observed = s.observed := rfl

@[simp] theorem resetCycle_crc (c : PortCycle) (s : State) : (resetCycle c s).crc = Config.initValue := by
  unfold resetCycle; split <;> rfl

@[simp] theorem resetCycle_port (c : PortCycle) (s : State) : (resetCycle c s).port = s.port := by
  unfold resetCycle; split <;> rfl

/-- Under reset the host observes something only where it presented a read, and that is a free value. -/
theorem resetCycle_observed (c : PortCycle) (s : State) :
    (resetCycle c s).observed =
      if c.presentsRead then s.observed ++ [Config.unspecified8 s.draws] else s.observed := by
  unfold resetCycle; split <;> rfl

/-- The fields of a word put together give the word back. -/
theorem mkWord_fields (w : TxWord) : mkWord (weOf w) (addrOf w) (wdataOf w) = w := by
  revert w; decide

@[simp] theorem PortCycle.ofWord_word (w : TxWord) : (PortCycle.ofWord w).word = w := mkWord_fields w

@[simp] theorem PortCycle.ofWord_rst (w : TxWord) : (PortCycle.ofWord w).rst = false := rfl

@[simp] theorem PortCycle.ofWord_sel (w : TxWord) : (PortCycle.ofWord w).sel = true := rfl

end Sys2Proof.Machine
end

