-- ==== Sys2Proof/Laws/Exec.lean ====
section
/-! SUPPORT. The state each transaction leads to, said once per operation: the provers cite these and
unfold no meaning. -/

namespace Sys2Proof.Machine

section
variable (s : State) (b : Byte)

theorem exec_upd : exec (.upd b) s = .next (s.setCrc (updateByte s.crc b)).driveUnspecified := rfl
theorem exec_init : exec .init s = .next (s.setCrc Config.initValue).driveUnspecified := rfl
theorem exec_wcsr : exec (.wcsr b) s = .next s.driveUnspecified := rfl
theorem exec_wlo : exec (.wlo b) s = .next s.driveUnspecified := rfl
theorem exec_whi : exec (.whi b) s = .next s.driveUnspecified := rfl
theorem exec_rdata : exec .rdata s = .next (s.driveRead 0x00#8) := rfl
theorem exec_rcsr : exec .rcsr s = .next (s.driveRead (csrByte s.crc)) := rfl
theorem exec_rlo : exec .rlo s = .next (s.driveRead (lowByte s.crc)) := rfl
theorem exec_rhi : exec .rhi s = .next (s.driveRead (highByte s.crc)) := rfl

end

/-- The register a transaction leaves behind, in one place. -/
def crcAfter (i : Instr) (crc : Reg16) : Reg16 :=
  match i with
  | .upd b => updateByte crc b
  | .init => Config.initValue
  | .wcsr _ | .wlo _ | .whi _ | .rdata | .rcsr | .rlo | .rhi => crc

/-- What a transaction adds to the observations, in one place. -/
def readsOf (i : Instr) (crc : Reg16) : List Byte :=
  match i with
  | .rdata => [0x00#8]
  | .rcsr => [csrByte crc]
  | .rlo => [lowByte crc]
  | .rhi => [highByte crc]
  | .upd _ | .init | .wcsr _ | .wlo _ | .whi _ => []

/-- Everything a transaction can do: if it answers t, then t is s with these fields. It always answers. -/
theorem exec_cases {i : Instr} {s t : State} (h : exec i s = .next t) :
    t.crc = crcAfter i s.crc ∧ t.port = s.port ∧ t.observed = s.observed ++ readsOf i s.crc := by
  cases i <;> cases h <;> simp [crcAfter, readsOf]

end Sys2Proof.Machine
end

