-- ==== Sys2Proof/Laws/PerInstr.lean ====
section
/-! SUPPORT. The per-instruction family OwnRow: the canonical word of a well-formed instruction lies in
that instruction's row of the opcode map (30_encoding.md R52, R56). -/

namespace Sys2Proof.Laws.OwnRow

/-- The instruction's canonical word matches its row under the row's mask. -/
def Statement (i : Instr) : Prop := i.WellFormed → i.opcode.selects (encode i) = true

theorem upd (b : Byte) : Statement (.upd b) := by
  intro _; revert b; decide

theorem init : Statement .init := by
  intro _; decide

theorem wcsr (v : Byte) : Statement (.wcsr v) := by
  unfold Statement; revert v; decide

theorem wlo (v : Byte) : Statement (.wlo v) := by
  intro _; revert v; decide

theorem whi (v : Byte) : Statement (.whi v) := by
  intro _; revert v; decide

theorem rdata : Statement .rdata := by
  intro _; decide

theorem rcsr : Statement .rcsr := by
  intro _; decide

theorem rlo : Statement .rlo := by
  intro _; decide

theorem rhi : Statement .rhi := by
  intro _; decide

end Sys2Proof.Laws.OwnRow
end

