-- ==== Sys2Proof/Laws/Step.lean ====
section
/-! SUPPORT. The step and a run taken apart, one lemma per case; later proofs cite these. -/

namespace Sys2Proof.Machine

theorem step_of_empty {s : State} (h : s.port = []) : step s = .next (idleCycle s) := by
  unfold step; rw [h]; rfl

theorem step_of_cons {s : State} {c : PortCycle} {rest : List PortCycle} (h : s.port = c :: rest) :
    step s = performCycle c { s with port := rest } := by
  unfold step; rw [h]

theorem performCycle_of_rst {c : PortCycle} (s : State) (h : c.rst = true) :
    performCycle c s = .next (resetCycle c s) := by
  simp [performCycle, h]

theorem performCycle_of_sel {c : PortCycle} (s : State) (hr : c.rst = false) (hs : c.sel = true) :
    performCycle c s = exec (decodeWord c.word) s := by
  simp [performCycle, hr, hs]

theorem performCycle_of_idle {c : PortCycle} (s : State) (hr : c.rst = false) (hs : c.sel = false) :
    performCycle c s = .next (idleCycle s) := by
  simp [performCycle, hr, hs]

@[simp] theorem performCycle_ofWord (w : TxWord) (s : State) :
    performCycle (PortCycle.ofWord w) s = exec (decodeWord w) s := by
  rw [performCycle_of_sel _ rfl rfl, PortCycle.ofWord_word]

@[simp] theorem run_zero (s : State) : Host.Core.run Sys2Proof.core 0 s = .next s := rfl

/-- One more step of a run, where the step answers. -/
theorem run_succ {s t : State} (k : Nat) (h : step s = .next t) :
    Host.Core.run Sys2Proof.core (k + 1) s = Host.Core.run Sys2Proof.core k t := by
  have h' : Sys2Proof.core.step s = .next t := h
  simp only [Host.Core.run, h']

/-- A run in two parts, where the first part answers. -/
theorem run_add {t : State} (j k : Nat) :
    ∀ s : State, Host.Core.run Sys2Proof.core j s = .next t →
      Host.Core.run Sys2Proof.core (j + k) s = Host.Core.run Sys2Proof.core k t := by
  induction j with
  | zero => intro s h; cases h; simp
  | succ j ih =>
    intro s h
    rw [Nat.succ_add]
    cases hs : step s with
    | next u =>
      rw [run_succ _ hs] at h ⊢
      exact ih u h
    | fault r => cases r
    | refused r =>
      have h' : Sys2Proof.core.step s = .refused r := hs
      simp only [Host.Core.run, h'] at h
      cases h

end Sys2Proof.Machine
end

