-- ==== Sys2Proof/Tests/Slice0.lean ====
section
/-! SUPPORT. The model's own tests. Expected values come from spec/95_test_vectors.md and from the words
written out from 30_encoding.md, never from the model. The witness theorems show that the hypotheses of
the obligation they are named after can be met, clause by clause. -/

namespace Sys2Proof.Tests
open Sys2Proof Sys2Proof.Machine

/-- A state with this register and these pending cycles. -/
def st (crc : Reg16) (port : List PortCycle) : State :=
  { crc := crc, rdata := 0x00#8, port := port, observed := [], draws := 0 }

/-- The register an outcome leaves. -/
def crcOf : Host.Outcome State Fault Refusal → Option Reg16
  | .next t => some t.crc
  | .fault _ => none
  | .refused _ => none

/-- What the host has observed after an outcome. -/
def readsIn : Host.Outcome State Fault Refusal → Option (List Byte)
  | .next t => some t.observed
  | .fault _ => none
  | .refused _ => none

/-- The register after one step that performs the word w. -/
def crcAfterWord (crc : Reg16) (w : TxWord) : Option Reg16 := crcOf (step (st crc [PortCycle.ofWord w]))

/-- The bytes observed after one step that performs the word w. -/
def readOfWord (crc : Reg16) (w : TxWord) : Option (List Byte) :=
  readsIn (step (st crc [PortCycle.ofWord w]))

/-! ### Well-formedness: the one check, 30_encoding.md R56 -/

theorem test_wellFormed_refuses_odd_wcsr :
    ¬ (Instr.wcsr 0x01).WellFormed ∧ ¬ (Instr.wcsr 0xFF).WellFormed ∧ assemble (.wcsr 0x01) = none := by decide

theorem test_wellFormed_accepts_even_wcsr :
    (Instr.wcsr 0x00).WellFormed ∧ (Instr.wcsr 0xFE).WellFormed ∧ (Instr.upd 0x01).WellFormed := by decide

/-! ### Decoding: words written out from 30_encoding.md R50; operations from table V6 -/

theorem test_decode_writes :
    decodeWord 0b10000000000 = .upd 0x00 ∧ decodeWord 0b10000000001 = .upd 0x01 ∧
    decodeWord 0b10011111111 = .upd 0xFF ∧ decodeWord 0b10100000000 = .wcsr 0x00 ∧
    decodeWord 0b10100000001 = .init ∧ decodeWord 0b10100000010 = .wcsr 0x02 ∧
    decodeWord 0b10111111110 = .wcsr 0xFE ∧ decodeWord 0b10111111111 = .init ∧
    decodeWord 0b11011111111 = .wlo 0xFF ∧ decodeWord 0b11111111111 = .whi 0xFF := by decide

theorem test_decode_reads :
    decodeWord 0b00000000000 = .rdata ∧ decodeWord 0b00011111111 = .rdata ∧
    decodeWord 0b00100000000 = .rcsr ∧ decodeWord 0b00100000001 = .rcsr ∧
    decodeWord 0b01010100101 = .rlo ∧ decodeWord 0b01111111111 = .rhi := by decide

theorem test_decode_numbers :
    decodeTableWord 16 0x4A5 = some (.upd 0xA5) ∧ decodeTableWord 16 0x501 = some .init ∧
    decodeTableWord 16 0x7FF = some (.whi 0xFF) ∧ decodeTableWord 16 0x800 = none := by decide

theorem test_encode_canonical :
    encode (.upd 0x01) = 0x401 ∧ encode .init = 0x501 ∧ encode (.wcsr 0x02) = 0x502 ∧
    encode (.wlo 0xAB) = 0x6AB ∧ encode (.whi 0xCD) = 0x7CD ∧ encode .rdata = 0x000 ∧
    encode .rcsr = 0x100 ∧ encode .rlo = 0x200 ∧ encode .rhi = 0x300 ∧ encode nop = 0x500 := by decide

theorem test_access_rejected :
    wordOfAccess true 0 2 0x1234 = .error .accessNotOneByte ∧
    wordOfAccess false 4 1 0 = .error .addressOutOfRange ∧
    wordOfAccess true 3 1 256 = .error .dataNotAByte ∧
    wordOfAccess true 3 1 255 = .ok 0x7FF := ⟨rfl, rfl, rfl, rfl⟩

theorem test_disassemble :
    disassemble 0x2A5 = (.rlo, some 0xA5) ∧ disassemble 0x5FF = (.init, some 0xFF) ∧
    disassemble 0x501 = (.init, none) ∧ disassemble 0x6FF = (.wlo 0xFF, none) := by decide

/-- The two examples of 30_encoding.md R56, and a write. -/
theorem test_printWord :
    printWord 0x2A5 = "RLO ; wdata=0xA5 ignored".toList ∧ printWord 0x5FF = "INIT ; wdata=0xFF".toList ∧
    printWord 0x501 = "INIT".toList ∧ printWord 0x612 = "WLO 0x12".toList := by decide

theorem test_assembleLine :
    assembleLine "UPD" [0xAA] = some 0x4AA ∧ assembleLine "UPD" [256] = none ∧
    assembleLine "WCSR" [0xFE] = some 0x5FE ∧ assembleLine "WCSR" [0xFF] = none ∧
    assembleLine "INIT" [] = some 0x501 ∧ assembleLine "NOP" [] = some 0x500 ∧
    assembleLine "RHI" [] = some 0x300 ∧ assembleLine "RHI" [0] = none := by decide

/-! ### The checksum functions: tables V1, V2, V4 -/

theorem test_shiftStep :
    shiftStep 0x0001 = 0xA001 ∧ shiftStep 0x8001 = 0xE001 ∧ shiftStep 0xFFFF = 0xDFFE ∧
    shiftStep 0xA001 = 0xF001 ∧ shiftStep 0x4003 = 0x8000 ∧ shiftStep 0x8000 = 0x4000 := by decide

theorem test_shiftStepInv :
    shiftStepInv 0xA001 = 0x0001 ∧ shiftStepInv 0x4000 = 0x8000 ∧ shiftStepInv 0xDFFE = 0xFFFF ∧
    shiftStepInv 0x8000 = 0x4003 := by decide

theorem test_updateByte :
    updateByte 0xFFFF 0x55 = 0x7F7F ∧ updateByte 0x1234 0x56 = 0xE993 ∧
    updateByte 0xABCD 0x78 = 0xB76A ∧ updateByte 0xB9F9 0x2E = 0x5EF9 ∧
    updateByte 0xFF00 0xFF = 0x40BF ∧ updateByte 0x7F7F 0x05 = 0xE3FE := by decide

theorem test_crc16_frames :
    crc16 [0x01, 0x05, 0x00, 0x05, 0xFF, 0x00] = [0x9C, 0x3B] ∧
    crc16 [0x01, 0x01, 0x00, 0x00, 0x00, 0x10] = [0x3D, 0xC6] ∧
    crc16 [0x55, 0x12, 0x34, 0x03, 0x01] = [0xAD, 0x8A] ∧
    crc16 [0x61, 0x62, 0x63] = [0x49, 0x57] := by
  simp [crc16, crc16Reg, updateByte, shiftStep, zext16, lowByte, highByte,
    Config.initValue, Config.feedback]

theorem test_frameValid :
    frameValid [] = false ∧ frameValid [0xFF] = false ∧ frameValid [0xFF, 0xFF] = true ∧
    frameValid [0x00, 0x00] = false ∧
    frameValid [0x01, 0x05, 0x00, 0x05, 0xFF, 0x00, 0x9C, 0x3B] = true ∧
    frameValid [0x01, 0x05, 0x00, 0x05, 0xFF, 0x00, 0x3B, 0x9C] = false := by
  simp [frameValid, crc16, crc16Reg, updateByte, shiftStep, zext16, lowByte, highByte,
    Config.initValue, Config.feedback]

/-! ### The operations, one step each: tables V7, V8, V10 -/

theorem test_upd : crcAfterWord 0x1234 0x434 = some 0x0012 ∧ crcAfterWord 0xFFFF 0x400 = some 0x40BF := by decide
theorem test_init : crcAfterWord 0x3B9C 0x501 = some 0xFFFF ∧ crcAfterWord 0x1234 0x5FF = some 0xFFFF := by decide
theorem test_wcsr : crcAfterWord 0x0000 0x502 = some 0x0000 ∧ crcAfterWord 0x3B9C 0x5FE = some 0x3B9C := by decide
theorem test_wlo : crcAfterWord 0x3B9C 0x600 = some 0x3B9C ∧ crcAfterWord 0x0000 0x6AB = some 0x0000 := by decide
theorem test_whi : crcAfterWord 0x3B9C 0x700 = some 0x3B9C ∧ crcAfterWord 0xFFFF 0x7CD = some 0xFFFF := by decide
theorem test_rdata : readOfWord 0x3B9C 0x000 = some [0x00] ∧ crcAfterWord 0x3B9C 0x0FF = some 0x3B9C := by decide
theorem test_rcsr : readOfWord 0x0000 0x1FF = some [0x02] ∧ readOfWord 0x0100 0x100 = some [0x00] := by decide
theorem test_rlo : readOfWord 0x1234 0x2A5 = some [0x34] ∧ crcAfterWord 0x1234 0x200 = some 0x1234 := by decide
theorem test_rhi : readOfWord 0x3B9C 0x300 = some [0x3B] ∧ crcAfterWord 0x3B9C 0x3FF = some 0x3B9C := by decide

/-- Table V10, row 5: a write in the cycle of a reset is discarded. -/
theorem test_reset_discards_a_write :
    crcOf (step (st 0x3B9C [{ PortCycle.ofWord 0x401 with rst := true }])) = some 0xFFFF := by decide

theorem test_idle_holds_the_register :
    crcOf (step (st 0x3B9C [PortCycle.idle])) = some 0x3B9C ∧ crcOf (step (st 0x3B9C [])) = some 0x3B9C := by decide

theorem test_fetchWord_runs_first :
    crcOf (step (State.reset.withFetchWord 16 0x401)) = some 0x807E := by decide

/-- Table V9: the words of `CRC16.MSG` and `CRC16.VERIFY.RES`. -/
theorem test_sequences_are_the_listed_words :
    msgCycles [0x01] = [0x501, 0x401, 0x200, 0x300].map PortCycle.ofWord ∧
    verifyResCycles [0xFF, 0xFF] = [0x501, 0x4FF, 0x4FF, 0x100].map PortCycle.ofWord ∧
    verifyCmpCycles [0xFF, 0xFF] = [0x501, 0x200, 0x300].map PortCycle.ofWord ∧
    verifyCmpCycles [0xFF] = [] := by decide

/-- Program P6: two users interleaved, the register after each of them absorbed a byte. -/
theorem test_history_of_interleaved_users :
    history [] ([0x501, 0x401, 0x501, 0x455, 0x405].map PortCycle.ofWord) = [0x55, 0x05] := by decide

/-! ### Witnesses: the hypotheses of the obligations can be met -/

theorem witness_ShiftStepIsTheConditionalShiftXor : (15 : Nat) < 16 ∧ (0 : Nat) < 16 := by decide

theorem witness_FrameValidComparesTheLastTwoBytes :
    ([] : List Byte).length < 2 ∧ ([0xFF] : List Byte).length < 2 := by decide

theorem witness_FrameValidExactlyWhenResidueIsZero : crc16Reg [0xFF, 0xFF] = 0x0000 := by
  simp [crc16Reg, updateByte, shiftStep, zext16, Config.initValue]

theorem witness_OnlyZeroBytesKeepAFrameValid : frameValid [0xFF, 0xFF] = true := by
  simp [frameValid, crc16, crc16Reg, lowByte, highByte, Config.initValue]

theorem witness_DecodeFollowsTheFields :
    (0xFF#8).getLsbD 0 = true ∧ (0xFE#8).getLsbD 0 = false ∧
    (decodeWord 0x5FE).opcode ≠ .upd ∧ decodeWord 0x5FE ≠ .init := by decide

theorem witness_DecodeOfEncodeIsTheInstruction :
    (Instr.wcsr 0xFE).WellFormed ∧ (Instr.init).WellFormed ∧ encode (.wcsr 0xFE) = encode (.wcsr 0xFE) := by decide

theorem witness_EncodeOfDecodeIsTheCanonicalWord :
    weOf 0x3FF = false ∧ (0x5FF#11 : TxWord) &&& 0x701 = 0x501 ∧
    (weOf 0x5FE = true ∧ (0x5FE#11 : TxWord) &&& 0x701 ≠ 0x501) := by decide

theorem witness_IgnoredBitsHaveNoEffect :
    (weOf 0x3FF = false ∧ (0x3FF#11 : TxWord) &&& 0x700 = 0x300#11 &&& 0x700) ∧
    ((0x5FE#11 : TxWord) &&& 0x700 = 0x500 ∧ (0x5FE#11 : TxWord) &&& 0x701 = 0x500#11 &&& 0x701) ∧
    (0x600 ≤ (0x7FF#11 : TxWord).toNat ∧ (0x7FF#11 : TxWord) &&& 0x700 = 0x700#11 &&& 0x700) := by decide

theorem witness_OutsideAccessesAreRejectedByName :
    (0x800 : Nat) ≤ 0x800 ∧ (2 : Nat) ≠ 1 ∧ (4 : Nat) ≤ 4 ∧ ((3 : Nat) < 4 ∧ (256 : Nat) ≤ 256) := by decide

theorem witness_AssemblerEmitsTheCanonicalWords : (256 : Nat) ≤ 256 := by decide

theorem witness_InitSetsTheRegisterToAllOnes : (0x5FF#11 : TxWord) &&& 0x701 = 0x501 := by decide

theorem witness_IgnoredWritesChangeNothing : (0xFE#8).getLsbD 0 = false := by decide

theorem witness_RdataReturnsZero :
    ((0x0FF#11 : TxWord) &&& 0x700 = 0x000) ∧ ∃ t, exec (.upd 0xA5) (st 0xFFFF []) = .next t :=
  ⟨by decide, _, rfl⟩

theorem witness_RcsrReturnsTheZeroFlagInBitOne :
    ((0x1FF#11 : TxWord) &&& 0x700 = 0x100) ∧ ∃ t, exec .init (st 0x0000 []) = .next t :=
  ⟨by decide, _, rfl⟩

theorem witness_RloReturnsTheLowByte :
    ((0x2FF#11 : TxWord) &&& 0x700 = 0x200) ∧ (∃ t, exec .init (st 0x3B9C []) = .next t) ∧
    (st 0x3B9C []).crc = 0x3B9C ∧ Explains [] (st 0xFFFF []) :=
  ⟨by decide, ⟨_, rfl⟩, rfl, rfl⟩

/-- The run clause of RloReturnsTheLowByte: an UPD, an INIT, then an ignored write, a read, an idle cycle and
an UPD that reset discards. -/
theorem witness_RloReturnsTheLowByte_run :
    let after := [PortCycle.ofWord 0x502, PortCycle.ofWord 0x200, PortCycle.idle,
      { PortCycle.ofWord 0x401 with rst := true }]
    (st 0x3B9C (PortCycle.ofWord 0x401 :: PortCycle.ofWord 0x501 :: after)).port =
      [PortCycle.ofWord 0x401] ++ PortCycle.ofWord 0x501 :: after ∧
    ((PortCycle.ofWord 0x501).sel = true ∧ decodeWord (PortCycle.ofWord 0x501).word = .init) ∧
    (∀ d ∈ after, d.rst = false → d.sel = true → (decodeWord d.word).opcode ≠ .upd) := by decide

theorem witness_RhiReturnsTheHighByte :
    ((0x3FF#11 : TxWord) &&& 0x700 = 0x300) ∧ Explains [0x01] (st 0x807E []) ∧ (st 0x3B9C []).crc = 0x3B9C :=
  ⟨by decide, by unfold Explains; decide, rfl⟩

theorem witness_StepPerformsTheDecodedTransaction :
    ∃ (s : State) (c : PortCycle) (rest : List PortCycle), s.port = c :: rest ∧ c.rst = false ∧ c.sel = true ∧ c = PortCycle.ofWord 0x401 :=
  ⟨st 0xFFFF [PortCycle.ofWord 0x401], _, _, rfl, rfl, rfl, rfl⟩

theorem witness_ResetWinsAndLeavesAllOnes :
    ∃ (s : State) (c : PortCycle) (rest : List PortCycle) (t u : State), s.port = c :: rest ∧ c.rst = true ∧ c.presentsRead = false ∧
      step s = .next t ∧ exec .init s = .next u :=
  ⟨st 0x3B9C [{ PortCycle.ofWord 0x401 with rst := true }], _, _, _, _, rfl, rfl, rfl, rfl, rfl⟩

theorem witness_StateAfterReset :
    ∃ (s : State) (c : PortCycle) (rest : List PortCycle) (t : State), s.port = c :: rest ∧ c.rst = true ∧ step s = .next t :=
  ⟨st 0x0000 [PortCycle.resetOnly], _, _, _, rfl, rfl, rfl⟩

theorem witness_OnlyUpdInitAndResetWriteTheRegister :
    (∃ t, step (st 0x1234 []) = .next t) ∧
    (∃ t, step (st 0x1234 [PortCycle.resetOnly]) = .next t ∧ PortCycle.resetOnly.rst = true) ∧
    (∃ t, step (st 0x1234 [PortCycle.idle]) = .next t ∧ PortCycle.idle.rst = false ∧ PortCycle.idle.sel = false) ∧
    (∃ t, step (st 0x1234 [PortCycle.ofWord 0x4FF]) = .next t ∧
      decodeWord (PortCycle.ofWord 0x4FF).word = .upd 0xFF) ∧
    (∃ t, step (st 0x1234 [PortCycle.ofWord 0x5FF]) = .next t ∧
      decodeWord (PortCycle.ofWord 0x5FF).word = .init) ∧
    (∃ t, step (st 0x1234 [PortCycle.ofWord 0x6FF]) = .next t ∧
      (decodeWord (PortCycle.ofWord 0x6FF).word).opcode ≠ .upd ∧
      decodeWord (PortCycle.ofWord 0x6FF).word ≠ .init) ∧
    ((Instr.rdata).opcode ≠ .upd ∧ Instr.rdata ≠ .rlo ∧ Instr.rdata ≠ .rhi ∧ Instr.rdata ≠ .rcsr ∧
      (∃ t, exec .rdata (st 0x1234 []) = .next t) ∧ ∃ t, exec .init (st 0x1234 []) = .next t) :=
  ⟨⟨_, rfl⟩, ⟨_, rfl, rfl⟩, ⟨_, rfl, rfl, rfl⟩, ⟨_, rfl, by decide⟩, ⟨_, rfl, by decide⟩,
    ⟨_, rfl, by decide, by decide⟩, by decide, by decide, by decide, by decide, ⟨_, rfl⟩, ⟨_, rfl⟩⟩

theorem witness_ZeroFlagFollowsTheRegister :
    (∀ c ∈ (st 0x0000 [PortCycle.ofWord 0x502]).port.head?, c.writesCrc = false) ∧
    (∃ t, step (st 0x0000 [PortCycle.ofWord 0x502]) = .next t) ∧ (st 0x0000 []).crc = 0x0000 :=
  ⟨by decide, ⟨_, rfl⟩, rfl⟩

theorem witness_OnlyDataWritesAreNotIdempotent :
    ((Instr.rcsr).isRead = true ∧ ∃ t, exec .rcsr (st 0x0000 []) = .next t) ∧
    ((Instr.wcsr 0xFE).WellFormed ∧ (Instr.wcsr 0xFE).opcode ≠ .upd ∧ Instr.wcsr 0xFE ≠ .init ∧
      ∃ t u, exec (.wcsr 0xFE) (st 0x0000 []) = .next t ∧ exec (.wcsr 0xFE) t = .next u) :=
  ⟨⟨rfl, _, rfl⟩, rfl, by decide, by decide, _, _, rfl, rfl⟩

theorem witness_CycleBehaviourOfThePort :
    ∃ (s : State) (c : PortCycle) (rest : List PortCycle), s.port = c :: rest ∧ c.rst = false ∧ c.sel = true ∧ c.we = false ∧ c.addr = 3 :=
  ⟨st 0x3B9C [PortCycle.ofWord 0x300], _, _, rfl, rfl, rfl, rfl, rfl⟩

theorem witness_AccessesAreRegReadAndRegWrite :
    (∃ (s : State) (rest : List PortCycle), s.port = PortCycle.ofWord (mkWord true (addrOfReg .crcHi) 0xFF) :: rest) ∧
    ∃ (s : State) (rest : List PortCycle), s.port = PortCycle.ofWord (mkWord false (addrOfReg .crcHi) 0xFF) :: rest :=
  ⟨⟨st 0x3B9C [PortCycle.ofWord (mkWord true (addrOfReg .crcHi) 0xFF)], [], rfl⟩,
    st 0x3B9C [PortCycle.ofWord (mkWord false (addrOfReg .crcHi) 0xFF)], [], rfl⟩

theorem witness_StepFunctionOnWords :
    (∃ (s : State) (rest : List PortCycle), s.port = PortCycle.ofWord 0x7FF :: rest) ∧ ∃ (s : State) (rest : List PortCycle), s.port = PortCycle.resetOnly :: rest :=
  ⟨⟨st 0x3B9C [PortCycle.ofWord 0x7FF], [], rfl⟩, st 0x3B9C [PortCycle.resetOnly], [], rfl⟩

theorem witness_ReadSeesExactlyTheEarlierTransactions :
    (PortCycle.ofWord 0x3FF).rst = false ∧ (PortCycle.ofWord 0x3FF).sel = true ∧
    (PortCycle.ofWord 0x3FF).we = false := by decide

theorem witness_StepKeepsTheRegisterExplained :
    Explains [0x01] (st 0x807E []) ∧ Explains [0x01] (st 0x807E [PortCycle.ofWord 0x405]) := by
  unfold Explains; decide

theorem witness_RegisterIsAFunctionOfTheBytesSinceInit :
    Explains [] (st 0xFFFF [PortCycle.ofWord 0x401]) ∧
    PortCycle.resetOnly.rst = true ∧
    ((PortCycle.ofWord 0x5FF).sel = true ∧ decodeWord (PortCycle.ofWord 0x5FF).word = .init) ∧
    (st 0x1234 [PortCycle.ofWord 0x5FF]).port = [] ++ PortCycle.ofWord 0x5FF :: [] := by
  unfold Explains; decide

theorem witness_IdleCyclesMayBeLeftOut :
    (st 0x3B9C [PortCycle.idle]).port = PortCycle.idle :: [] ∧ PortCycle.idle.rst = false ∧
    PortCycle.idle.sel = false ∧ NoReadUnderReset [PortCycle.resetOnly, PortCycle.ofWord 0x200] := by
  unfold NoReadUnderReset; decide

theorem witness_RunsWithEqualRegistersObserveTheSame :
    (st 0x3B9C [PortCycle.ofWord 0x200]).crc = { st 0x3B9C [PortCycle.ofWord 0x200] with draws := 7 }.crc ∧
    NoReadUnderReset (st 0x3B9C [PortCycle.ofWord 0x200]).port := by
  unfold NoReadUnderReset; decide

theorem witness_MsgReturnsTheChecksum :
    ∃ (s : State) (rest : List PortCycle), s.port = msgCycles [0x01] ++ rest := ⟨st 0x1234 (msgCycles [0x01] ++ []), _, rfl⟩

theorem witness_EmptyMessageReadsAllOnes :
    ∃ (s : State) (rest : List PortCycle), s.port = [PortCycle.ofWord 0x501, PortCycle.ofWord 0x200, PortCycle.ofWord 0x300] ++ rest :=
  ⟨st 0x1234 [PortCycle.ofWord 0x501, PortCycle.ofWord 0x200, PortCycle.ofWord 0x300], [], rfl⟩

theorem witness_AppendBuildsAValidFrame :
    ∃ (s : State) (rest : List PortCycle), s.port = msgCycles [0x55, 0x12, 0x34, 0x03, 0x01] ++ rest :=
  ⟨st 0x0000 (msgCycles [0x55, 0x12, 0x34, 0x03, 0x01] ++ []), _, rfl⟩

theorem witness_PrefixChecksumsCanBeReadOnTheWay :
    ∃ (s : State) (rest : List PortCycle), s.port = msgCycles [0x01] ++ (updAll [0x05] ++ readBoth) ++ rest :=
  ⟨st 0x0000 (msgCycles [0x01] ++ (updAll [0x05] ++ readBoth) ++ []), _, rfl⟩

theorem witness_VerifyByComparisonDecidesValidity :
    (∃ (s : State) (rest : List PortCycle), s.port = verifyCmpCycles [0xFF] ++ rest) ∧ ∃ (s : State) (rest : List PortCycle), s.port = verifyCmpCycles [0xFF, 0xFF] ++ rest :=
  ⟨⟨st 0x0000 [], [], rfl⟩, st 0x0000 (verifyCmpCycles [0xFF, 0xFF] ++ []), _, rfl⟩

theorem witness_VerifyByResidueDecidesValidity :
    (∃ (s : State) (rest : List PortCycle), s.port = verifyResCycles [] ++ rest) ∧ ∃ (s : State) (rest : List PortCycle), s.port = verifyResCycles [0xFF, 0xFF] ++ rest :=
  ⟨⟨st 0x0000 (verifyResCycles [] ++ []), _, rfl⟩, st 0x0000 (verifyResCycles [0xFF, 0xFF] ++ []), _, rfl⟩

theorem witness_MissingInitSumsBothMessages :
    Explains [0xAA] (st 0x3F3F (updAll [0x01] ++ [])) ∧
    (st 0x3F3F (updAll [0x01] ++ [])).port = updAll [0x01] ++ [] := by
  unfold Explains; decide

end Sys2Proof.Tests
end

section
/-! The fields and the operation of a word put together from its fields (30_encoding.md R50, R53). -/

namespace Sys2Proof.Machine

section
variable (we : Bool) (a : PortAddr) (d : Byte)

/-- Every bit of a word: bits 7:0 are the data, bits 9:8 the address, bit 10 the direction. -/
theorem mkWord_getLsbD (i : Nat) :
    (mkWord we a d).getLsbD i =
      if i < 8 then d.getLsbD i
      else if i - 8 < 2 then a.getLsbD (i - 8)
      else (BitVec.ofBool we).getLsbD (i - 8 - 2) :=
  BitVec.getLsbD_append.trans (by rw [BitVec.getLsbD_append])

@[simp] theorem weOf_mkWord : weOf (mkWord we a d) = we := by
  rw [weOf, mkWord_getLsbD]
  simp

@[simp] theorem addrOf_mkWord : addrOf (mkWord we a d) = a := by
  ext i hi
  simp [addrOf, mkWord_getLsbD, hi]

@[simp] theorem wdataOf_mkWord : wdataOf (mkWord we a d) = d := by
  ext i hi
  simp [wdataOf, mkWord_getLsbD, hi]

end

@[simp] theorem regOfAddr_addrOfReg (r : PortReg) : regOfAddr (addrOfReg r) = r := by
  cases r <;> rfl

theorem decodeWord_mkWord_write (a : PortAddr) (v : Byte) :
    decodeWord (mkWord true a v) = decodeWrite (regOfAddr a) v := by
  simp [decodeWord]

theorem decodeWord_mkWord_read (a : PortAddr) (v : Byte) :
    decodeWord (mkWord false a v) = decodeRead (regOfAddr a) := by
  simp [decodeWord]

end Sys2Proof.Machine
end

section
/-! A performed access as one access of the register addressed: the meanings of the transactions against
RegRead and RegWrite (00_scope.md R8, 10_state.md R15). -/

namespace Sys2Proof.Machine

/-- The step of a cycle that presents a word: the word's operation, with the cycle taken off the port. -/
theorem step_ofWord {s : State} {w : TxWord} {rest : List PortCycle} (h : s.port = PortCycle.ofWord w :: rest) :
    step s = exec (decodeWord w) { s with port := rest } := by
  rw [step_of_cons h, performCycle_ofWord]

@[simp] theorem State.setCrc_self (s : State) : s.setCrc s.crc = s := rfl

/-- An ignored write leaves the register it found, so one equation covers it and the two that replace it. -/
theorem exec_decodeWrite (r : PortReg) (v : Byte) (s : State) :
    exec (decodeWrite r v) s = .next (s.setCrc (regWrite r v s.crc)).driveUnspecified := by
  cases r with
  | data => exact exec_upd s v
  | csr =>
    cases h : v.getLsbD 0 with
    | false => simp only [decodeWrite, regWrite, h, exec_wcsr, State.setCrc_self, Bool.false_eq_true, if_false]
    | true => simp only [decodeWrite, regWrite, h, exec_init, if_true]
  | crcLo => simp [decodeWrite, regWrite, exec_wlo]
  | crcHi => simp [decodeWrite, regWrite, exec_whi]

theorem exec_decodeRead (r : PortReg) (s : State) :
    exec (decodeRead r) s = .next (s.driveRead (regRead r s.crc)) := by
  cases r with
  | data => exact exec_rdata s
  | csr => exact exec_rcsr s
  | crcLo => exact exec_rlo s
  | crcHi => exact exec_rhi s

section
variable {s : State} {r : PortReg} {v : Byte} {rest : List PortCycle}

/-- A write cycle is one RegWrite of the register it addresses. -/
theorem step_write (h : s.port = PortCycle.ofWord (mkWord true (addrOfReg r) v) :: rest) :
    step s = .next (({ s with port := rest }).setCrc (regWrite r v s.crc)).driveUnspecified := by
  rw [step_ofWord h, decodeWord_mkWord_write, regOfAddr_addrOfReg, exec_decodeWrite]

/-- A read cycle is one RegRead of the register it addresses. -/
theorem step_read (h : s.port = PortCycle.ofWord (mkWord false (addrOfReg r) v) :: rest) :
    step s = .next (({ s with port := rest }).driveRead (regRead r s.crc)) := by
  rw [step_ofWord h, decodeWord_mkWord_read, regOfAddr_addrOfReg, exec_decodeRead]

end

/-- Settles O41: `step_write` and `step_read` name the next state, whose fields are the claim. -/
theorem accessesAreRegReadAndRegWrite : Obligations.AccessesAreRegReadAndRegWrite := by
  unfold Obligations.AccessesAreRegReadAndRegWrite
  constructor
  · intro s r v rest h
    exact ⟨_, step_write h, by simp⟩
  · intro s r v rest h
    exact ⟨_, step_read h, by simp⟩

end Sys2Proof.Machine
end

section
/-! The register after one cycle and after a run (10_state.md R11): the one lemma per cycle, step and run
from which the claims about `crc` follow. -/

namespace Sys2Proof.Machine

/-- The register after one cycle: reset and INIT preset it, UPD absorbs its byte, everything else holds it. -/
def crcAfterCycle (crc : Reg16) (c : PortCycle) : Reg16 :=
  if c.rst then Config.initValue
  else if c.sel then crcAfter (decodeWord c.word) crc
  else crc

section
variable {c : PortCycle} (crc : Reg16)

theorem crcAfterCycle_of_rst (hr : c.rst = true) : crcAfterCycle crc c = Config.initValue := by
  simp [crcAfterCycle, hr]

theorem crcAfterCycle_of_sel (hr : c.rst = false) (hs : c.sel = true) :
    crcAfterCycle crc c = crcAfter (decodeWord c.word) crc := by
  simp [crcAfterCycle, hr, hs]

theorem crcAfterCycle_of_idle (hr : c.rst = false) (hs : c.sel = false) : crcAfterCycle crc c = crc := by
  simp [crcAfterCycle, hr, hs]

/-- A reset presented together with an INIT presets the register all the same. -/
theorem crcAfterCycle_of_preset (h : c.rst = true ∨ (c.sel = true ∧ decodeWord c.word = .init)) :
    crcAfterCycle crc c = Config.initValue := by
  cases hr : c.rst with
  | true => exact crcAfterCycle_of_rst crc hr
  | false =>
    obtain ⟨hs, hi⟩ := h.resolve_left (by simp [hr])
    rw [crcAfterCycle_of_sel crc hr hs, hi]
    rfl

end

/-- A transaction that is neither UPD nor INIT holds the register. -/
theorem crcAfter_of_ne {i : Instr} (crc : Reg16) (hu : i.opcode ≠ .upd) (hi : i ≠ .init) :
    crcAfter i crc = crc := by
  cases i with
  | upd b => exact absurd rfl hu
  | init => exact absurd rfl hi
  | wcsr | wlo | whi | rdata | rcsr | rlo | rhi => rfl

/-- `writesCrc` names every cycle that can change the register. -/
theorem crcAfterCycle_of_not_writesCrc {c : PortCycle} (crc : Reg16) (h : c.writesCrc = false) :
    crcAfterCycle crc c = crc := by
  obtain ⟨hr, -⟩ := Bool.or_eq_false_iff.mp h
  cases hs : c.sel with
  | false => exact crcAfterCycle_of_idle crc hr hs
  | true =>
    rw [crcAfterCycle_of_sel crc hr hs]
    cases hd : decodeWord c.word with
    | upd | init => simp [PortCycle.writesCrc, hs, hd] at h
    | wcsr | wlo | whi | rdata | rcsr | rlo | rhi => rfl

theorem exec_completes (i : Instr) (s : State) : ∃ t, exec i s = .next t := by
  cases i <;> exact ⟨_, rfl⟩

/-- Every cycle completes; what it leaves in the register and on the port. -/
theorem performCycle_completes (c : PortCycle) (s : State) :
    ∃ t, performCycle c s = .next t ∧ t.crc = crcAfterCycle s.crc c ∧ t.port = s.port := by
  cases hr : c.rst with
  | true => exact ⟨_, performCycle_of_rst s hr, by simp [crcAfterCycle_of_rst _ hr]⟩
  | false =>
    cases hs : c.sel with
    | false => exact ⟨_, performCycle_of_idle s hr hs, by simp [crcAfterCycle_of_idle _ hr hs]⟩
    | true =>
      obtain ⟨t, ht⟩ := exec_completes (decodeWord c.word) s
      obtain ⟨hcrc, hport, -⟩ := exec_cases ht
      exact ⟨t, (performCycle_of_sel s hr hs).trans ht, by rw [hcrc, crcAfterCycle_of_sel _ hr hs], hport⟩

theorem step_completes_of_cons {s : State} {c : PortCycle} {rest : List PortCycle} (h : s.port = c :: rest) :
    ∃ t, step s = .next t ∧ t.crc = crcAfterCycle s.crc c ∧ t.port = rest := by
  rw [step_of_cons h]
  exact performCycle_completes c { s with port := rest }

theorem step_crc_of_empty {s t : State} (h : s.port = []) (ht : step s = .next t) : t.crc = s.crc := by
  cases (step_of_empty h).symm.trans ht
  exact idleCycle_crc s

theorem step_crc_of_cons {s t : State} {c : PortCycle} {rest : List PortCycle} (h : s.port = c :: rest)
    (ht : step s = .next t) : t.crc = crcAfterCycle s.crc c := by
  obtain ⟨u, hu, hcrc, -⟩ := step_completes_of_cons h
  cases hu.symm.trans ht
  exact hcrc

/-- A run over the first cycles of the port folds them into the register and leaves the others presented. -/
theorem run_completes (cs rest : List PortCycle) :
    ∀ s : State, s.port = cs ++ rest → ∃ t, Host.Core.run Sys2Proof.core cs.length s = .next t ∧
      t.crc = cs.foldl crcAfterCycle s.crc ∧ t.port = rest := by
  induction cs with
  | nil => intro s hp; exact ⟨s, run_zero s, rfl, hp⟩
  | cons c cs ih =>
    intro s hp
    obtain ⟨u, hu, hcrc, hport⟩ := step_completes_of_cons hp
    obtain ⟨t, ht, htcrc, htport⟩ := ih u hport
    exact ⟨t, (run_succ cs.length hu).trans ht, by rw [htcrc, hcrc, List.foldl_cons], htport⟩

end Sys2Proof.Machine
end

section
/-! The register as the checksum of the bytes since the last INIT or reset (10_state.md R22): the history
of the bytes and the register go through a cycle side by side. -/

namespace Sys2Proof.Machine

theorem absorbAll_append (r : Reg16) (s t : List Byte) :
    absorbAll r (s ++ t) = absorbAll (absorbAll r s) t := by
  induction s generalizing r with
  | nil => rfl
  | cons b s ih => exact ih (updateByte r b)

/-- One cycle takes the checksum of the history to the checksum of the next history. -/
theorem crc16Reg_historyCycle (h : List Byte) (c : PortCycle) :
    crc16Reg (historyCycle h c) = crcAfterCycle (crc16Reg h) c := by
  unfold historyCycle crcAfterCycle
  cases c.rst with
  | true => rfl
  | false =>
    cases c.sel with
    | false => rfl
    | true =>
      cases decodeWord c.word with
      | upd b => exact absorbAll_append Config.initValue h [b]
      | init | wcsr | wlo | whi | rdata | rcsr | rlo | rhi => rfl

theorem crc16Reg_history (h : List Byte) (cs : List PortCycle) :
    crc16Reg (history h cs) = cs.foldl crcAfterCycle (crc16Reg h) := by
  induction cs generalizing h with
  | nil => rfl
  | cons c cs ih =>
    rw [List.foldl_cons, ← crc16Reg_historyCycle]
    exact ih (historyCycle h c)

/-- Settles O46: with a cycle presented by `crc16Reg_historyCycle`, with none because the register is held. -/
theorem stepKeepsTheRegisterExplained : Obligations.StepKeepsTheRegisterExplained := by
  unfold Obligations.StepKeepsTheRegisterExplained
  intro h s hs
  cases hp : s.port with
  | nil => exact ⟨_, step_of_empty hp, hs⟩
  | cons c rest =>
    obtain ⟨t, ht, hcrc, -⟩ := step_completes_of_cons hp
    refine ⟨t, ht, ?_⟩
    calc t.crc = crcAfterCycle s.crc c := hcrc
      _ = crcAfterCycle (crc16Reg h) c := congrArg (crcAfterCycle · c) hs
      _ = crc16Reg (historyCycle h c) := (crc16Reg_historyCycle h c).symm

/-- Settles O48: a run folds its cycles into the register, and the fold forgets what stood before a reset
or an INIT. -/
theorem registerIsAFunctionOfTheBytesSinceInit : Obligations.RegisterIsAFunctionOfTheBytesSinceInit := by
  unfold Obligations.RegisterIsAFunctionOfTheBytesSinceInit
  constructor
  · intro cs s h hp hs
    obtain ⟨t, ht, hcrc, -⟩ := run_completes cs [] s (by simp [hp])
    exact ⟨t, ht, by rw [hcrc, hs, crc16Reg_history]⟩
  · intro before after c s hp hc
    obtain ⟨t, ht, hcrc, -⟩ := run_completes (before ++ c :: after) [] s (by simp [hp])
    refine ⟨t, ht, ?_⟩
    calc t.crc = after.foldl crcAfterCycle (crcAfterCycle (before.foldl crcAfterCycle s.crc) c) := by
          rw [hcrc, List.foldl_append, List.foldl_cons]
      _ = after.foldl crcAfterCycle (crc16Reg []) := by rw [crcAfterCycle_of_preset _ hc]; rfl
      _ = crc16Reg (history [] after) := (crc16Reg_history [] after).symm

/-- Settles O47: no byte leaves the initial value, which is that of reset. -/
theorem resetIsExplainedByNoBytes : Obligations.ResetIsExplainedByNoBytes := rfl

end Sys2Proof.Machine
end

section
/-! What writes and what reads the register, the flag computed from it, and the values after reset
(10_state.md R11, R14, R20). -/

namespace Sys2Proof.Machine

/-- Only RLO, RHI and RCSR show the host anything of the register. -/
theorem readsOf_eq_of_ne {i : Instr} (crc v : Reg16) (hlo : i ≠ .rlo) (hhi : i ≠ .rhi) (hcsr : i ≠ .rcsr) :
    readsOf i v = readsOf i crc := by
  cases i with
  | rlo => exact absurd rfl hlo
  | rhi => exact absurd rfl hhi
  | rcsr => exact absurd rfl hcsr
  | upd | init | wcsr | wlo | whi | rdata => rfl

/-- Settles O37: the first part reads `crcAfterCycle` off the step, the second compares two `exec_cases`. -/
theorem onlyUpdInitAndResetWriteTheRegister : Obligations.OnlyUpdInitAndResetWriteTheRegister := by
  unfold Obligations.OnlyUpdInitAndResetWriteTheRegister
  constructor
  · intro s t ht
    refine ⟨fun hp => step_crc_of_empty hp ht, fun c rest hp => ?_⟩
    rw [step_crc_of_cons hp ht]
    refine ⟨crcAfterCycle_of_rst _, crcAfterCycle_of_idle _, fun hr hs => ?_⟩
    rw [crcAfterCycle_of_sel _ hr hs]
    refine ⟨fun b hd => ?_, fun hd => ?_, crcAfter_of_ne _⟩
    · rw [hd]; rfl
    · rw [hd]; rfl
  · intro i s t t' v _ hlo hhi hcsr ht ht'
    obtain ⟨hcrc, -, hobs⟩ := exec_cases ht
    obtain ⟨hcrc', -, hobs'⟩ := exec_cases ht'
    refine ⟨?_, ?_, ?_⟩
    · rw [hobs, hobs', readsOf_eq_of_ne s.crc v hlo hhi hcsr]
    · rintro rfl
      cases ht
      cases ht'
      rfl
    · rintro rfl
      exact hcrc'.trans hcrc.symm

theorem regRead_csr_getLsbD_one (crc : Reg16) : (regRead .csr crc).getLsbD 1 = zeroFlag crc := by
  simp only [regRead, csrByte]
  cases zeroFlag crc <;> decide

/-- Settles O38: the flag is a function of the register, and only a cycle that writes the register moves it. -/
theorem zeroFlagFollowsTheRegister : Obligations.ZeroFlagFollowsTheRegister := by
  unfold Obligations.ZeroFlagFollowsTheRegister
  simp only [regRead_csr_getLsbD_one]
  refine ⟨fun s => beq_iff_eq, rfl, fun s t hw ht => congrArg zeroFlag ?_⟩
  cases hp : s.port with
  | nil => exact step_crc_of_empty hp ht
  | cons c rest =>
    rw [step_crc_of_cons hp ht]
    exact crcAfterCycle_of_not_writesCrc _ (hw c (by simp [hp]))

/-- Settles O35: every reset leaves the initial value, and the table is what its views read. -/
theorem stateAfterReset : Obligations.StateAfterReset := by
  unfold Obligations.StateAfterReset
  refine ⟨fun t hreset => ?_, fun v => rfl⟩
  have hcrc : t.crc = 0xFFFF := by
    obtain rfl | ⟨s, c, rest, hp, hr, ht⟩ := hreset
    · rfl
    · exact (step_crc_of_cons hp ht).trans (crcAfterCycle_of_rst s.crc hr)
  rw [hcrc]
  decide

end Sys2Proof.Machine
end

section
/-! What a performed access does not do: reads are repeatable, and of the writes only DATA writes are not
idempotent (20_memory.md R38). -/

namespace Sys2Proof.Machine

/-- The read transactions are the four the decoder answers for a read. -/
theorem exists_decodeRead_of_isRead {i : Instr} (h : i.isRead = true) : ∃ r, i = decodeRead r := by
  cases i with
  | rdata => exact ⟨.data, rfl⟩
  | rcsr => exact ⟨.csr, rfl⟩
  | rlo => exact ⟨.crcLo, rfl⟩
  | rhi => exact ⟨.crcHi, rfl⟩
  | upd | init | wcsr | wlo | whi => exact absurd h Bool.false_ne_true

/-- INIT replaces the register by a constant, and everything else but UPD holds it. -/
theorem crcAfter_idem {i : Instr} (crc : Reg16) (hu : i.opcode ≠ .upd) :
    crcAfter i (crcAfter i crc) = crcAfter i crc := by
  by_cases hi : i = .init
  · subst hi
    rfl
  · exact crcAfter_of_ne _ hu hi

/-- Settles O39: a read is `exec_decodeRead`, the writes are `exec_cases`, and a zero byte absorbed twice after
reset is the UPD that is not idempotent. -/
theorem onlyDataWritesAreNotIdempotent : Obligations.OnlyDataWritesAreNotIdempotent := by
  unfold Obligations.OnlyDataWritesAreNotIdempotent
  refine ⟨fun i s t hi ht => ?_, fun i s t u _ hu ht htu => ?_, fun i s t _ hu hi ht => ?_, ?_⟩
  · obtain ⟨r, rfl⟩ := exists_decodeRead_of_isRead hi
    cases (exec_decodeRead r s).symm.trans ht
    exact ⟨fun _ => rfl, rfl, _, exec_decodeRead r _, rfl, rfl⟩
  · obtain ⟨hcrc, -, -⟩ := exec_cases ht
    obtain ⟨hcrc', -, -⟩ := exec_cases htu
    rw [hcrc', hcrc, crcAfter_idem _ hu]
  · obtain ⟨hcrc, -, -⟩ := exec_cases ht
    rw [hcrc, crcAfter_of_ne _ hu hi]
  · have once : updateByte State.reset.crc 0x00 = 0x40BF := by decide
    have twice : updateByte 0x40BF 0x00 ≠ 0x40BF := by decide
    refine ⟨0x00, State.reset, _, _, exec_upd _ _, exec_upd _ _, ?_⟩
    simp only [State.driveUnspecified_crc, State.setCrc_crc]
    rw [once]
    exact twice

end Sys2Proof.Machine
end

section
/-! What a read among other cycles returns, and which cycles the register depends on (20_memory.md R39, R38):
both from `run_completes`, the register as the fold of `crcAfterCycle`. -/

namespace Sys2Proof.Machine

/-- A cycle whose signals present a read is one RegRead of the register addressed. -/
theorem performCycle_of_read {c : PortCycle} (s : State) (hr : c.rst = false) (hs : c.sel = true)
    (hw : c.we = false) : performCycle c s = .next (s.driveRead (regRead (regOfAddr c.addr) s.crc)) := by
  rw [performCycle_of_sel s hr hs, PortCycle.word, hw, decodeWord_mkWord_read, exec_decodeRead]

/-- A run up to and including a read: the value read is fixed by the cycles before it. -/
theorem run_read {s : State} {before after : List PortCycle} {c : PortCycle}
    (hp : s.port = before ++ c :: after) (hr : c.rst = false) (hs : c.sel = true) (hw : c.we = false) :
    ∃ t u, Host.Core.run Sys2Proof.core before.length s = .next t ∧
      Host.Core.run Sys2Proof.core (before.length + 1) s = .next u ∧
      t.crc = before.foldl crcAfterCycle s.crc ∧ t.port = c :: after ∧
      u.port = after ∧ u.rdata = regRead (regOfAddr c.addr) t.crc := by
  obtain ⟨t, ht, hcrc, hport⟩ := run_completes before (c :: after) s hp
  have hread : step t = .next (({ t with port := after }).driveRead (regRead (regOfAddr c.addr) t.crc)) :=
    (step_of_cons hport).trans (performCycle_of_read _ hr hs hw)
  have hu := (run_add before.length 1 s ht).trans (run_succ 0 hread)
  exact ⟨t, _, ht, hu, hcrc, hport, rfl, rfl⟩

/-- Settles O45: by `run_read` both reads see the fold over the cycles before them. -/
theorem readSeesExactlyTheEarlierTransactions : Obligations.ReadSeesExactlyTheEarlierTransactions := by
  unfold Obligations.ReadSeesExactlyTheEarlierTransactions
  intro s before after after' c hr hs hw
  obtain ⟨t, u, ht, hu, hcrc, hport, huport, hread⟩ :=
    run_read (s := { s with port := before ++ c :: after }) rfl hr hs hw
  obtain ⟨t', u', -, hu', hcrc', -, -, hread'⟩ :=
    run_read (s := { s with port := before ++ c :: after' }) rfl hr hs hw
  exact ⟨t, u, u', ht, hu, hu', hport, huport, hread, by rw [hread', hread, hcrc', hcrc]⟩

theorem foldl_crcAfterCycle_filter_writesCrc (cs : List PortCycle) (crc : Reg16) :
    (cs.filter PortCycle.writesCrc).foldl crcAfterCycle crc = cs.foldl crcAfterCycle crc := by
  induction cs generalizing crc with
  | nil => rfl
  | cons c cs ih =>
    cases h : c.writesCrc with
    | true => rw [List.filter_cons_of_pos h, List.foldl_cons, List.foldl_cons, ih]
    | false =>
      rw [List.filter_cons_of_neg (by simp [h]), List.foldl_cons, crcAfterCycle_of_not_writesCrc crc h, ih]

/-- Settles O50: both runs fold their cycles into one register, and the fold passes over the cycles dropped. -/
theorem cyclesThatDoNotWriteMayBeDropped : Obligations.CyclesThatDoNotWriteMayBeDropped := by
  unfold Obligations.CyclesThatDoNotWriteMayBeDropped
  intro cs s
  obtain ⟨t, ht, hcrc, -⟩ := run_completes cs [] { s with port := cs } (List.append_nil cs).symm
  obtain ⟨u, hu, hcrc', -⟩ := run_completes (cs.filter PortCycle.writesCrc) []
    { s with port := cs.filter PortCycle.writesCrc } (List.append_nil _).symm
  exact ⟨t, u, ht, hu, by rw [hcrc, hcrc', foldl_crcAfterCycle_filter_writesCrc]⟩

end Sys2Proof.Machine
end

section
/-! The boundary of the interface: which numbers and accesses are transaction words, and the registers in a
host's address space (20_memory.md R32, R36; 93_implementation_defined.md U9). -/

namespace Sys2Proof.Machine

theorem decodeNumber_of_le {n : Nat} (h : 0x800 ≤ n) : decodeNumber n = .error .notATransactionWord :=
  if_neg (Nat.not_lt.mpr h)

@[simp] theorem decodeNumber_toNat (w : TxWord) : decodeNumber w.toNat = .ok (decodeWord w) := by
  rw [decodeNumber, if_pos w.isLt, BitVec.ofNat_toNat, BitVec.setWidth_eq]

section
variable (we : Bool)

theorem wordOfAccess_of_bytes_ne {n : Nat} (a d : Nat) (h : n ≠ 1) :
    wordOfAccess we a n d = .error .accessNotOneByte :=
  if_pos h

theorem wordOfAccess_of_addr_ge {a : Nat} (d : Nat) (h : 4 ≤ a) :
    wordOfAccess we a 1 d = .error .addressOutOfRange := by
  simp [wordOfAccess, h]

theorem wordOfAccess_of_data_ge {a d : Nat} (ha : a < 4) (hd : 256 ≤ d) :
    wordOfAccess we a 1 d = .error .dataNotAByte := by
  simp [wordOfAccess, Nat.not_le.mpr ha, hd]

@[simp] theorem wordOfAccess_toNat (a : PortAddr) (d : Byte) :
    wordOfAccess we a.toNat 1 d.toNat = .ok (mkWord we a d) := by
  have ha : ¬ 4 ≤ a.toNat := Nat.not_le.mpr a.isLt
  have hd : ¬ 256 ≤ d.toNat := Nat.not_le.mpr d.isLt
  simp [wordOfAccess, ha, hd]

/-- A host access at a register is the access at its block-local address, wherever the block stands. -/
theorem wordOfHostAccess_hostAddress (r : PortReg) (n d : Nat) :
    wordOfHostAccess we (hostAddress r) n d = wordOfAccess we (addrOfReg r).toNat n d := by
  simp [wordOfHostAccess, hostAddress]

end

/-- Settles O23: one lemma per rejection, and the two for what is accepted. -/
theorem outsideAccessesAreRejectedByName : Obligations.OutsideAccessesAreRejectedByName :=
  ⟨fun _ => decodeNumber_of_le, decodeNumber_toNat, fun we a _ d => wordOfAccess_of_bytes_ne we a d,
    fun we _ d => wordOfAccess_of_addr_ge we d, fun we _ _ => wordOfAccess_of_data_ge we, wordOfAccess_toNat⟩

/-- Settles O43: the map is `addrOfReg` moved to the base, and the base cancels in an access. -/
theorem registersStandAtTheBaseAddress : Obligations.RegistersStandAtTheBaseAddress := by
  unfold Obligations.RegistersStandAtTheBaseAddress
  refine ⟨rfl, rfl, rfl, rfl, fun we r d => ?_, fun we r d => ?_⟩
  · rw [wordOfHostAccess_hostAddress, wordOfAccess_toNat]
  · rw [addrOf_mkWord, regOfAddr_addrOfReg]

end Sys2Proof.Machine
end

section
/-! A word as a number, put together from its fields in one way only, and what the masks of the opcode map
leave of it (30_encoding.md R50, R52). -/

namespace Sys2Proof.Machine

section
variable (we : Bool) (a : PortAddr) (d : Byte)

theorem toNat_mkWord : (mkWord we a d).toNat = we.toNat * 0x400 + a.toNat * 0x100 + d.toNat := by
  simp only [mkWord, BitVec.toNat_append, BitVec.toNat_ofBool]
  rw [← Nat.shiftLeft_add_eq_or_of_lt d.isLt, ← Nat.shiftLeft_add_eq_or_of_lt a.isLt]
  simp only [Nat.shiftLeft_eq]
  omega

theorem mkWord_eq_add_setWidth : mkWord we a d = mkWord we a 0x00 + d.setWidth 11 := by
  apply BitVec.eq_of_toNat_eq
  have hlt : (mkWord we a d).toNat < 2 ^ 11 := (mkWord we a d).isLt
  have hzero : (0x00 : Byte).toNat = 0 := rfl
  rw [toNat_mkWord] at hlt
  rw [BitVec.toNat_add, BitVec.toNat_setWidth, toNat_mkWord, toNat_mkWord, hzero]
  omega

variable (we' : Bool) (a' : PortAddr) (d' : Byte)

theorem mkWord_inj : mkWord we a d = mkWord we' a' d' ↔ we = we' ∧ a = a' ∧ d = d' := by
  constructor
  · intro h
    have hwe := congrArg weOf h
    have ha := congrArg addrOf h
    have hd := congrArg wdataOf h
    simp only [weOf_mkWord, addrOf_mkWord, wdataOf_mkWord] at hwe ha hd
    exact ⟨hwe, ha, hd⟩
  · rintro ⟨rfl, rfl, rfl⟩
    rfl

theorem mkWord_and_mkWord :
    mkWord we a d &&& mkWord we' a' d' = mkWord (we && we') (a &&& a') (d &&& d') :=
  BitVec.and_append.trans (by rw [BitVec.and_append, BitVec.ofBool_and_ofBool]; rfl)

end

/-- A mask of the opcode map keeps the direction and the address. -/
theorem and_mkWord_true_three (w : TxWord) (m : Byte) :
    w &&& mkWord true 3 m = mkWord (weOf w) (addrOf w) (wdataOf w &&& m) := by
  have haddr : addrOf w &&& 3 = addrOf w := BitVec.and_allOnes
  rw [← mkWord_fields w, mkWord_and_mkWord, mkWord_fields, Bool.and_true, haddr]

theorem and_0x700 (w : TxWord) : w &&& 0x700 = mkWord (weOf w) (addrOf w) 0x00 :=
  (and_mkWord_true_three w 0x00).trans (congrArg _ BitVec.and_zero)

theorem and_0x701 (w : TxWord) :
    w &&& 0x701 = mkWord (weOf w) (addrOf w) ((BitVec.ofBool ((wdataOf w).getLsbD 0)).setWidth 8) :=
  (and_mkWord_true_three w 0x01).trans (congrArg _ BitVec.and_one_eq_setWidth_ofBool_getLsbD)

theorem and_0x700_eq_iff {w w' : TxWord} :
    w &&& 0x700 = w' &&& 0x700 ↔ weOf w = weOf w' ∧ addrOf w = addrOf w' := by
  rw [and_0x700, and_0x700, mkWord_inj, and_iff_left rfl]

theorem setWidth_ofBool_inj {b b' : Bool} :
    (BitVec.ofBool b).setWidth 8 = (BitVec.ofBool b').setWidth 8 ↔ b = b' := by
  revert b b'
  decide

theorem and_0x701_eq_iff {w w' : TxWord} :
    w &&& 0x701 = w' &&& 0x701 ↔
      weOf w = weOf w' ∧ addrOf w = addrOf w' ∧ (wdataOf w).getLsbD 0 = (wdataOf w').getLsbD 0 := by
  rw [and_0x701, and_0x701, mkWord_inj, setWidth_ofBool_inj]

/-- Every word is a write or a read of a register. -/
theorem exists_write_or_read (w : TxWord) :
    ∃ r d, w = mkWord true (addrOfReg r) d ∨ w = mkWord false (addrOfReg r) d := by
  have haddr : ∀ a : PortAddr, addrOfReg (regOfAddr a) = a := by decide
  refine ⟨regOfAddr (addrOf w), wdataOf w, ?_⟩
  rw [haddr]
  cases hw : weOf w with
  | true => exact .inl (hw ▸ (mkWord_fields w).symm)
  | false => exact .inr (hw ▸ (mkWord_fields w).symm)

/-- Settles O16: the fields read back by `toNat_mkWord` and the field lemmas, and they are all of a word. -/
theorem wordIsWeAddrWdata : Obligations.WordIsWeAddrWdata := by
  unfold Obligations.WordIsWeAddrWdata
  refine ⟨fun we a d => ⟨toNat_mkWord we a d, ?_, weOf_mkWord we a d, addrOf_mkWord we a d,
    wdataOf_mkWord we a d⟩, mkWord_fields⟩
  exact Nat.le_of_lt_succ (mkWord we a d).isLt

end Sys2Proof.Machine
end

section
/-! The decoder against the fields and the encoder (30_encoding.md R53, R55, R56). -/

namespace Sys2Proof.Machine

theorem decodeWrite_csr_of_odd {d : Byte} (h : d.getLsbD 0 = true) : decodeWrite .csr d = .init :=
  if_pos h

theorem decodeWrite_csr_of_even {d : Byte} (h : d.getLsbD 0 = false) : decodeWrite .csr d = .wcsr d :=
  if_neg (Bool.eq_false_iff.mp h)

/-- WCSR alone is checked, and its operand is even. -/
theorem wellFormed_wcsr_iff {v : Byte} : (Instr.wcsr v).WellFormed ↔ v.getLsbD 0 = false :=
  (Bool.not_eq_true' _).to_iff

/-- A CSR write with bit 0 set is decoded to INIT, so the one operand check never fails on what is decoded. -/
theorem wellFormed_decodeWrite (r : PortReg) (d : Byte) : (decodeWrite r d).WellFormed := by
  cases r with
  | csr =>
    cases h : d.getLsbD 0 with
    | true => rw [decodeWrite_csr_of_odd h]; rfl
    | false => rw [decodeWrite_csr_of_even h]; exact wellFormed_wcsr_iff.mpr h
  | data | crcLo | crcHi => rfl

theorem wellFormed_decodeRead (r : PortReg) : (decodeRead r).WellFormed := by
  cases r <;> rfl

theorem wellFormed_decodeWord (w : TxWord) : (decodeWord w).WellFormed := by
  obtain ⟨r, d, rfl | rfl⟩ := exists_write_or_read w
  · rw [decodeWord_mkWord_write]
    exact wellFormed_decodeWrite _ d
  · rw [decodeWord_mkWord_read]
    exact wellFormed_decodeRead _

theorem decodeWord_encode {i : Instr} (h : i.WellFormed) : decodeWord (encode i) = i := by
  cases i with
  | upd b => exact decodeWord_mkWord_write 0 b
  | init => exact decodeWord_mkWord_write 1 0x01
  | wcsr v => exact (decodeWord_mkWord_write 1 v).trans (decodeWrite_csr_of_even (wellFormed_wcsr_iff.mp h))
  | wlo v => exact decodeWord_mkWord_write 2 v
  | whi v => exact decodeWord_mkWord_write 3 v
  | rdata => exact decodeWord_mkWord_read 0 0x00
  | rcsr => exact decodeWord_mkWord_read 1 0x00
  | rlo => exact decodeWord_mkWord_read 2 0x00
  | rhi => exact decodeWord_mkWord_read 3 0x00

theorem canonicalWord_of_read {w : TxWord} (h : weOf w = false) :
    canonicalWord w = mkWord false (addrOf w) 0x00 := by
  simp [canonicalWord, h]

/-- The words of INIT are the CSR writes with bit 0 set. -/
theorem and_0x701_eq_init_iff {w : TxWord} :
    w &&& 0x701 = 0x501 ↔ weOf w = true ∧ addrOf w = 1#2 ∧ (wdataOf w).getLsbD 0 = true :=
  and_0x701_eq_iff (w' := 0x501)

theorem canonicalWord_of_init {w : TxWord} (h : w &&& 0x701 = 0x501) : canonicalWord w = 0x501 := by
  obtain ⟨hwrite, hcsr⟩ := and_0x701_eq_init_iff.mp h
  rw [canonicalWord, if_pos hwrite, if_pos hcsr]
  rfl

theorem canonicalWord_of_write {w : TxWord} (h : weOf w = true) (hi : w &&& 0x701 ≠ 0x501) :
    canonicalWord w = w := by
  rw [canonicalWord, if_pos h, if_neg fun hcsr => hi (and_0x701_eq_init_iff.mpr ⟨h, hcsr⟩)]

theorem canonicalWord_mkWord_write (a : PortAddr) (d : Byte) :
    canonicalWord (mkWord true a d) = if a = 1#2 ∧ d.getLsbD 0 = true then 0x501 else mkWord true a d := by
  simp [canonicalWord]

theorem encode_decodeWord (w : TxWord) : encode (decodeWord w) = canonicalWord w := by
  obtain ⟨r, d, rfl | rfl⟩ := exists_write_or_read w
  · rw [decodeWord_mkWord_write, regOfAddr_addrOfReg, canonicalWord_mkWord_write]
    cases r with
    | csr =>
      cases h : d.getLsbD 0 with
      | true => rw [decodeWrite_csr_of_odd h, if_pos ⟨rfl, rfl⟩]; rfl
      | false => rw [decodeWrite_csr_of_even h, if_neg fun hbit => Bool.false_ne_true hbit.2]; rfl
    | data | crcLo | crcHi => rfl
  · rw [decodeWord_mkWord_read, regOfAddr_addrOfReg, canonicalWord_of_read (weOf_mkWord ..), addrOf_mkWord]
    cases r <;> rfl

/-- Settles O19: `decodeWord_encode` is a left inverse, so encoding is injective, and with `encode_decodeWord`
it makes every encoding its own canonical word. -/
theorem decodeOfEncodeIsTheInstruction : Obligations.DecodeOfEncodeIsTheInstruction := by
  unfold Obligations.DecodeOfEncodeIsTheInstruction
  refine ⟨fun i => decodeWord_encode, fun i j hi hj h => ?_, fun i hi => ?_⟩
  · calc i = decodeWord (encode i) := (decodeWord_encode hi).symm
      _ = decodeWord (encode j) := congrArg decodeWord h
      _ = j := decodeWord_encode hj
  · calc canonicalWord (encode i) = encode (decodeWord (encode i)) := (encode_decodeWord _).symm
      _ = encode i := congrArg encode (decodeWord_encode hi)

/-- Settles O20: one lemma per clause; the mask clears the data of a read as its canonical word does. -/
theorem encodeOfDecodeIsTheCanonicalWord : Obligations.EncodeOfDecodeIsTheCanonicalWord := by
  unfold Obligations.EncodeOfDecodeIsTheCanonicalWord
  refine ⟨encode_decodeWord, wellFormed_decodeWord, fun w h => ?_, fun w => canonicalWord_of_init,
    fun w => canonicalWord_of_write⟩
  rw [canonicalWord_of_read h, and_0x700, h]

/-- Settles O18: the decoder on a word put together from its fields; what is neither UPD nor INIT holds the
register by `crcAfter_of_ne`. -/
theorem decodeFollowsTheFields : Obligations.DecodeFollowsTheFields := by
  unfold Obligations.DecodeFollowsTheFields
  refine ⟨fun d => ⟨decodeWord_mkWord_write 0 d, fun h => ?_, fun h => ?_, decodeWord_mkWord_write 2 d,
    decodeWord_mkWord_write 3 d, decodeWord_mkWord_read 0 d, decodeWord_mkWord_read 1 d,
    decodeWord_mkWord_read 2 d, decodeWord_mkWord_read 3 d⟩, fun w s hu hi => ?_⟩
  · exact (decodeWord_mkWord_write 1 d).trans (decodeWrite_csr_of_odd h)
  · exact (decodeWord_mkWord_write 1 d).trans (decodeWrite_csr_of_even h)
  · obtain ⟨t, ht⟩ := exec_completes (decodeWord w) s
    obtain ⟨hcrc, -, -⟩ := exec_cases ht
    exact ⟨t, ht, by rw [hcrc, crcAfter_of_ne _ hu hi]⟩

/-- Settles O22: nine words, one per operation, evaluated. -/
theorem wordsWrittenOutDecodeRight : Obligations.WordsWrittenOutDecodeRight := by
  unfold Obligations.WordsWrittenOutDecodeRight
  decide

end Sys2Proof.Machine
end

section
/-! The rows of the opcode map (30_encoding.md R52): selection and decoding both look at the four bits of
0x701 alone, so the sixteen words under that mask decide. -/

namespace Sys2Proof.Machine

theorem selects_and_0x701 (o : Opcode) (w : TxWord) : o.selects (w &&& 0x701) = o.selects w := by
  have hmask : 0x701 &&& o.mask = o.mask := by cases o <;> rfl
  simp only [Opcode.selects, BitVec.and_assoc, hmask]

theorem opcode_decodeWord_and_0x701 (w : TxWord) :
    (decodeWord (w &&& 0x701)).opcode = (decodeWord w).opcode := by
  rw [and_0x701]
  obtain ⟨r, d, rfl | rfl⟩ := exists_write_or_read w
  · simp only [weOf_mkWord, addrOf_mkWord, wdataOf_mkWord, decodeWord_mkWord_write, regOfAddr_addrOfReg]
    cases r with
    | csr =>
      cases h : d.getLsbD 0 with
      | true => rw [decodeWrite_csr_of_odd h]; rfl
      | false => rw [decodeWrite_csr_of_even h]; rfl
    | data | crcLo | crcHi => rfl
  · simp only [weOf_mkWord, addrOf_mkWord, decodeWord_mkWord_read]

/-- A row selects exactly the words that decode to it. -/
theorem selects_iff (o : Opcode) (w : TxWord) : o.selects w = true ↔ (decodeWord w).opcode = o := by
  rw [← selects_and_0x701, ← opcode_decodeWord_and_0x701, and_0x701]
  generalize weOf w = we, addrOf w = a, (wdataOf w).getLsbD 0 = b
  revert we a b
  cases o <;> decide

theorem selects_iff_fields (o : Opcode) (w : TxWord) :
    o.selects w = true ↔
      weOf w = weOf o.pattern ∧ addrOf w = addrOf o.pattern ∧
        wdataOf w &&& wdataOf o.mask = wdataOf o.pattern := by
  have hmask : o.mask = mkWord true 3 (wdataOf o.mask) := by cases o <;> rfl
  rw [Opcode.selects, beq_iff_eq, hmask, and_mkWord_true_three, wdataOf_mkWord, ← mkWord_inj, mkWord_fields]

/-- The words of a row differ in the data byte alone, so they are as many as the bytes the row admits. -/
theorem length_filter_selects (o : Opcode) :
    ((List.range 2048).filter fun n => o.selects (BitVec.ofNat 11 n)).length =
      (Finset.univ.filter fun d : Byte => d &&& wdataOf o.mask = wdataOf o.pattern).card := by
  rw [← List.toFinset_card_of_nodup (List.nodup_range.filter _)]
  refine Finset.card_bij' (fun n _ => wdataOf (BitVec.ofNat 11 n))
    (fun d _ => (mkWord (weOf o.pattern) (addrOf o.pattern) d).toNat) ?_ ?_ ?_ ?_
  all_goals simp only [List.mem_toFinset, List.mem_filter, List.mem_range, Finset.mem_filter_univ,
    BitVec.ofNat_toNat, BitVec.setWidth_eq, selects_iff_fields, wdataOf_mkWord, weOf_mkWord, addrOf_mkWord]
  · exact fun n ⟨_, _, _, hd⟩ => hd
  · exact fun d hd => ⟨(mkWord _ _ d).isLt, trivial, trivial, hd⟩
  · intro n ⟨hlt, hwe, ha, _⟩
    rw [← hwe, ← ha, mkWord_fields]
    exact Nat.mod_eq_of_lt hlt
  · exact fun _ _ => trivial

/-- A row admits every byte, or the bytes of one parity where it is INIT or WCSR. -/
theorem card_bytes_of_row (o : Opcode) :
    (Finset.univ.filter fun d : Byte => d &&& wdataOf o.mask = wdataOf o.pattern).card =
      if o = .init ∨ o = .wcsr then 128 else 256 := by
  have hall : (Finset.univ.filter fun d : Byte => d &&& 0x00#8 = 0x00#8).card = 256 := by
    rw [Finset.filter_true_of_mem fun d _ => BitVec.and_zero, Finset.card_univ]
    exact FinEnum.card_eq_fintypeCard.symm
  cases o with
  | init | wcsr => rfl
  | upd | wlo | whi | rdata | rcsr | rlo | rhi => exact hall

/-- Settles O17: every clause on a mask and a match is `selects_iff` of that row. -/
theorem rowsSelectTheDecodedOperation : Obligations.RowsSelectTheDecodedOperation := by
  unfold Obligations.RowsSelectTheDecodedOperation
  have hrow (o : Opcode) (w : TxWord) : w &&& o.mask = o.pattern ↔ (decodeWord w).opcode = o :=
    beq_iff_eq.symm.trans (selects_iff o w)
  exact ⟨fun w => ⟨hrow .upd w, hrow .init w, hrow .wcsr w, hrow .wlo w, hrow .whi w, hrow .rdata w,
    hrow .rcsr w, hrow .rlo w, hrow .rhi w⟩, fun w o => selects_iff o w,
    fun o => (length_filter_selects o).trans (card_bytes_of_row o)⟩

end Sys2Proof.Machine
end

section
/-! The bits a word carries for nothing (30_encoding.md R55): a word acts through its direction, its address
and what a write of its byte leaves in the register. -/

namespace Sys2Proof.Machine

theorem exec_decodeWord_of_read {w : TxWord} (s : State) (h : weOf w = false) :
    exec (decodeWord w) s = .next (s.driveRead (regRead (regOfAddr (addrOf w)) s.crc)) := by
  rw [decodeWord, if_neg (by simp [h]), exec_decodeRead]

theorem exec_decodeWord_of_write {w : TxWord} (s : State) (h : weOf w = true) :
    exec (decodeWord w) s =
      .next (s.setCrc (regWrite (regOfAddr (addrOf w)) (wdataOf w) s.crc)).driveUnspecified := by
  rw [decodeWord, if_pos h, exec_decodeWrite]

/-- Bit 0 is all a CSR write looks at. -/
theorem regWrite_csr_congr {v v' : Byte} (crc : Reg16) (h : v.getLsbD 0 = v'.getLsbD 0) :
    regWrite .csr v crc = regWrite .csr v' crc := by
  simp only [regWrite, h]

/-- The words from 0x600 on write one of the two read-only registers, which leaves `crc` alone. -/
theorem regWrite_of_le_toNat {w : TxWord} (h : 0x600 ≤ w.toNat) :
    weOf w = true ∧ ∀ (v : Byte) (crc : Reg16), regWrite (regOfAddr (addrOf w)) v crc = crc := by
  obtain ⟨r, d, rfl | rfl⟩ := exists_write_or_read w
  · rw [toNat_mkWord, Bool.toNat_true] at h
    have haddr : 2 ≤ (addrOfReg r).toNat := by omega
    refine ⟨weOf_mkWord .., fun v crc => ?_⟩
    rw [addrOf_mkWord, regOfAddr_addrOfReg]
    cases r with
    | data | csr => exact absurd haddr (by decide)
    | crcLo | crcHi => rfl
  · rw [toNat_mkWord, Bool.toNat_false] at h
    omega

/-- Settles O21: equal masked words have equal fields, and an operation uses no more of its word than
`exec_decodeWord_of_read` and `exec_decodeWord_of_write` say. -/
theorem ignoredBitsHaveNoEffect : Obligations.IgnoredBitsHaveNoEffect := by
  unfold Obligations.IgnoredBitsHaveNoEffect
  refine fun w w' s => ⟨exec_completes _ s, fun hread h => ?_, fun hcsr h => ?_, fun hge h => ?_⟩
  · obtain ⟨hwe, ha⟩ := and_0x700_eq_iff.mp h
    rw [exec_decodeWord_of_read s hread, exec_decodeWord_of_read s (hwe ▸ hread), ha]
  · obtain ⟨hwrite, haddr⟩ := and_0x700_eq_iff (w' := 0x500) |>.mp hcsr
    obtain ⟨hwe, ha, hbit⟩ := and_0x701_eq_iff.mp h
    have hreg : regOfAddr (addrOf w) = .csr := congrArg regOfAddr haddr
    rw [exec_decodeWord_of_write s hwrite, exec_decodeWord_of_write s (hwe ▸ hwrite), ← ha, hreg,
      regWrite_csr_congr s.crc hbit]
  · obtain ⟨hwe, ha⟩ := and_0x700_eq_iff.mp h
    obtain ⟨hwrite, hignored⟩ := regWrite_of_le_toNat hge
    rw [exec_decodeWord_of_write s hwrite, exec_decodeWord_of_write s (hwe ▸ hwrite), ← ha, hignored, hignored]

end Sys2Proof.Machine
end

section
/-! The assembler's lines (30_encoding.md R56, R57). -/

namespace Sys2Proof.Machine

@[simp] theorem byteOperand_toNat (b : Byte) : byteOperand b.toNat = some b := by
  rw [byteOperand, if_pos b.isLt, BitVec.ofNat_toNat, BitVec.setWidth_eq]

theorem byteOperand_of_le {n : Nat} (h : 256 ≤ n) : byteOperand n = none :=
  if_neg (Nat.not_lt.mpr h)

theorem parseLine_of_le (m : String) {n : Nat} (h : 256 ≤ n) : parseLine m [n] = none := by
  simp [parseLine, byteOperand_of_le h]

theorem assembleLine_of_parseLine {m : String} {ns : List Nat} {i : Instr} (h : parseLine m ns = some i) :
    assembleLine m ns = assemble i := by
  rw [assembleLine, h, Option.bind_some]

theorem assemble_wcsr (v : Byte) :
    assemble (.wcsr v) = if v.toNat % 2 = 0 then some (mkWord true 1 v) else none := by
  have hbit : v.getLsbD 0 = decide (v.toNat % 2 = 1) := Nat.testBit_zero _
  rw [assemble]
  refine if_congr (wellFormed_wcsr_iff.trans ?_) rfl rfl
  rw [hbit, decide_eq_false_iff_not]
  exact Nat.mod_two_ne_one

/-- Settles O24: a line is parsed to its instruction, whose canonical word is its row's plus the operand. -/
theorem assemblerEmitsTheCanonicalWords : Obligations.AssemblerEmitsTheCanonicalWords := by
  unfold Obligations.AssemblerEmitsTheCanonicalWords
  refine ⟨fun b => ?_, fun v => ?_, fun v => ?_, fun v => ?_, fun m n h => ?_, ?_⟩
  · have hline : parseLine "UPD" [b.toNat] = some (.upd b) := by simp [parseLine]
    rw [assembleLine_of_parseLine hline]
    exact congrArg some (mkWord_eq_add_setWidth true 0 b)
  · have hline : parseLine "WCSR" [v.toNat] = some (.wcsr v) := by simp [parseLine]
    rw [assembleLine_of_parseLine hline, assemble_wcsr, mkWord_eq_add_setWidth true 1 v]
    rfl
  · have hline : parseLine "WLO" [v.toNat] = some (.wlo v) := by simp [parseLine]
    rw [assembleLine_of_parseLine hline]
    exact congrArg some (mkWord_eq_add_setWidth true 2 v)
  · have hline : parseLine "WHI" [v.toNat] = some (.whi v) := by simp [parseLine]
    rw [assembleLine_of_parseLine hline]
    exact congrArg some (mkWord_eq_add_setWidth true 3 v)
  · rw [assembleLine, parseLine_of_le m h, Option.bind_none]
  · decide

end Sys2Proof.Machine
end

section
/-! A step as the decoded transaction of the next cycle (30_encoding.md R51; 10_state.md R13). -/

namespace Sys2Proof.Machine

theorem withFetchWord_toNat (s : State) (w : TxWord) :
    s.withFetchWord 16 w.toNat = { s with port := PortCycle.ofWord w :: s.port } := by
  have hmod : w.toNat % 2 ^ 16 = w.toNat := Nat.mod_eq_of_lt (Nat.lt_trans w.isLt (by decide))
  rw [State.withFetchWord, presentFirst, hmod, if_pos w.isLt, BitVec.ofNat_toNat, BitVec.setWidth_eq]

/-- Settles O33: the next cycle is taken off the port and performed, also where `withFetchWord` put it there. -/
theorem stepPerformsTheDecodedTransaction : Obligations.StepPerformsTheDecodedTransaction := by
  unfold Obligations.StepPerformsTheDecodedTransaction
  refine ⟨fun s c rest hp hr hs => ?_, fun s w rest => step_ofWord, fun s w => ?_⟩
  · rw [step_of_cons hp, performCycle_of_sel _ hr hs, PortCycle.word]
  · rw [withFetchWord_toNat]
    exact step_ofWord rfl

end Sys2Proof.Machine
end

section
/-! A shift step bit by bit, its linearity and its inverse (40_crc_core.md R71, R81, R82). -/

namespace Sys2Proof.Machine

theorem feedback_getLsbD {i : Nat} (h : i < 16) :
    Config.feedback.getLsbD i = (i == 15 || i == 13 || i == 0) := by
  revert i
  decide

/-- Bit `i` of a shift step: the bit above it, inverted where the feedback has a 1 if bit 0 was 1. -/
theorem shiftStep_getLsbD (r : Reg16) (i : Nat) :
    (shiftStep r).getLsbD i = (r.getLsbD (i + 1) ^^ (r.getLsbD 0 && Config.feedback.getLsbD i)) := by
  cases h : r.getLsbD 0 with
  | false => simp [shiftStep_of_even h, Nat.add_comm]
  | true => simp [shiftStep_of_odd h, Nat.add_comm]

/-- Settles O1: the two cases of bit 0 as values, and `shiftStep_getLsbD` with the bits of the feedback. -/
theorem shiftStepIsTheConditionalShiftXor : Obligations.ShiftStepIsTheConditionalShiftXor := by
  unfold Obligations.ShiftStepIsTheConditionalShiftXor
  refine ⟨fun r => ?_, fun r i hi => ?_, by decide⟩
  · have hbit : r.getLsbD 0 = decide (r.toNat % 2 = 1) := Nat.testBit_zero r.toNat
    split
    case isTrue hodd =>
      rw [shiftStep_of_odd (hbit.trans (decide_eq_true hodd)), BitVec.toNat_xor, BitVec.toNat_ushiftRight,
        Nat.shiftRight_one]
      rfl
    case isFalse heven =>
      rw [shiftStep_of_even (hbit.trans (decide_eq_false heven)), BitVec.toNat_ushiftRight, Nat.shiftRight_one]
  · rw [shiftStep_getLsbD, feedback_getLsbD hi]

theorem shiftStep_xor (a b : Reg16) : shiftStep (a ^^^ b) = shiftStep a ^^^ shiftStep b := by
  ext i hi
  simp only [← BitVec.getLsbD_eq_getElem, BitVec.getLsbD_xor, shiftStep_getLsbD, Bool.and_xor_distrib_right,
    Bool.xor_assoc, Bool.xor_left_comm]

theorem shiftStep_iterate_xor (n : Nat) (a b : Reg16) :
    shiftStep^[n] (a ^^^ b) = shiftStep^[n] a ^^^ shiftStep^[n] b := by
  induction n generalizing a b with
  | zero => rfl
  | succ n ih => simp only [Function.iterate_succ_apply, shiftStep_xor, ih]

theorem shift8_xor (a b : Reg16) : shift8 (a ^^^ b) = shift8 a ^^^ shift8 b := shiftStep_iterate_xor 8 a b

/-- Absorbing a byte is one XOR and `shift8`. -/
theorem updateByte_eq_shift8 (r : Reg16) (b : Byte) : updateByte r b = shift8 (r ^^^ zext16 b) := rfl

/-- Settles O7: both functions are linear, and `updateByte` is `shift8` of a XOR. -/
theorem shiftingIsLinearOverXor : Obligations.ShiftingIsLinearOverXor :=
  ⟨shiftStep_xor, shiftStep_zero, shift8_xor, fun r b =>
    ⟨updateByte_eq_shift8 r b, (updateByte_eq_shift8 r b).trans (shift8_xor r (zext16 b))⟩⟩

/-- Settles O2: the value the eight steps start from is `r` with the byte XORed into bits 7:0. -/
theorem updateByteIsOneXorAndEightSteps : Obligations.UpdateByteIsOneXorAndEightSteps := by
  unfold Obligations.UpdateByteIsOneXorAndEightSteps
  refine ⟨fun r b => ⟨r ^^^ zext16 b, fun i _ => ?_, updateByte_eq_shift8 r b⟩, by decide⟩
  have hbyte : b.getLsbD i = (decide (i < 8) && b.getLsbD i) := by
    by_cases h : i < 8
    · simp [h]
    · simp [BitVec.getLsbD_of_ge b i (Nat.le_of_not_lt h)]
  rw [BitVec.getLsbD_xor, zext16_getLsbD, ← hbyte]

/-- Bit 0 of the inverse is the bit that told whether the feedback was applied; above it stands the value
with the feedback undone. -/
theorem shiftStepInv_getLsbD (o : Reg16) (i : Nat) :
    (shiftStepInv o).getLsbD i = if i < 1 then o.getLsbD 15
      else decide (i - 1 < 15) && (o.getLsbD (i - 1) ^^ (o.getLsbD 15 && Config.feedback.getLsbD (i - 1))) := by
  cases h : o.getLsbD 15 with
  | false =>
    rw [shiftStepInv, h, if_neg Bool.false_ne_true]
    exact BitVec.getLsbD_append.trans (by simp [BitVec.getLsbD_extractLsb'])
  | true =>
    rw [shiftStepInv, h, if_pos rfl]
    exact BitVec.getLsbD_append.trans (by simp [BitVec.getLsbD_extractLsb'])

theorem shiftStepInv_leftInverse : Function.LeftInverse shiftStepInv shiftStep := by
  intro r
  have htop : (shiftStep r).getLsbD 15 = r.getLsbD 0 := by
    rw [shiftStep_getLsbD, feedback_getLsbD (by decide), BitVec.getLsbD_of_ge r 16 (by decide)]
    simp
  refine BitVec.eq_of_getLsbD_eq fun i hi => ?_
  rw [shiftStepInv_getLsbD, htop]
  cases i with
  | zero => rfl
  | succ i =>
    have hi' : i < 15 := Nat.lt_of_succ_lt_succ hi
    simp [shiftStep_getLsbD, hi']

/-- On the finitely many register values an injection is a bijection. -/
theorem shiftStep_bijective : Function.Bijective shiftStep :=
  Finite.injective_iff_bijective.mp shiftStepInv_leftInverse.injective

theorem shift8_bijective : Function.Bijective shift8 := shiftStep_bijective.iterate 8

theorem zext16_injective : Function.Injective zext16 := by
  intro b c h
  refine BitVec.eq_of_getLsbD_eq fun i _ => ?_
  rw [← zext16_getLsbD b, h, zext16_getLsbD]

/-- Settles O8: the left inverse of a bijection is its right inverse, and a XOR followed by `shift8` merges
nothing in either argument. -/
theorem shiftStepInverseAndBijectiveUpdate : Obligations.ShiftStepInverseAndBijectiveUpdate := by
  unfold Obligations.ShiftStepInverseAndBijectiveUpdate
  have hright := shiftStepInv_leftInverse.rightInverse_of_surjective shiftStep_bijective.surjective
  refine ⟨shiftStepInv_leftInverse, hright, fun b => ?_, fun r b c h => ?_⟩
  · have hxor : Function.Injective fun r : Reg16 => r ^^^ zext16 b := fun _ _ => (BitVec.xor_left_inj _).mp
    exact shift8_bijective.comp (Finite.injective_iff_bijective.mp hxor)
  · exact zext16_injective ((BitVec.xor_right_inj r).mp (shift8_bijective.injective h))

/-- Where bit 0 is clear a fixed value is its own half. -/
theorem eq_zero_of_shiftStep_eq_self {r : Reg16} (h0 : r.getLsbD 0 = false) (h : shiftStep r = r) :
    r = 0x0000 := by
  rw [shiftStep_of_even h0] at h
  have hhalf : r.toNat / 2 = r.toNat := by
    rw [← Nat.shiftRight_one, ← BitVec.toNat_ushiftRight, h]
  exact BitVec.eq_of_toNat_eq (show r.toNat = 0 by omega)

/-- Settles O15: the fixed values are closed under XOR, so an odd one differs from 0xC001 by an even one,
which is zero. -/
theorem shiftStepFixesExactlyTwoValues : Obligations.ShiftStepFixesExactlyTwoValues := by
  unfold Obligations.ShiftStepFixesExactlyTwoValues
  have hfix : shiftStep 0xC001 = 0xC001 := by decide
  refine ⟨fun r => ⟨fun h => ?_, ?_⟩, by decide, by decide⟩
  · cases h0 : r.getLsbD 0 with
    | false => exact .inl (eq_zero_of_shiftStep_eq_self h0 h)
    | true =>
      have hzero : r ^^^ 0xC001 = 0x0000 :=
        eq_zero_of_shiftStep_eq_self (by simp [h0]) (by rw [shiftStep_xor, h, hfix])
      exact .inr (BitVec.xor_eq_zero_iff.mp hzero)
  · rintro (rfl | rfl)
    · exact shiftStep_zero
    · exact hfix

end Sys2Proof.Machine
end

section
/-! The register as its two bytes, and what its own bytes do to it (40_crc_core.md R83, R84). -/

namespace Sys2Proof.Machine

theorem highByte_append_lowByte (r : Reg16) : highByte r ++ lowByte r = r :=
  (BitVec.extractLsb'_append_extractLsb'_eq_extractLsb' rfl).trans BitVec.extractLsb'_eq_self

@[simp] theorem lowByte_append (c1 c0 : Byte) : lowByte (c1 ++ c0) = c0 := BitVec.extractLsb'_append_eq_right

@[simp] theorem highByte_append (c1 c0 : Byte) : highByte (c1 ++ c0) = c1 := BitVec.extractLsb'_append_eq_left

/-- The bytes of a register value are its digits. -/
theorem eq_append_iff {r : Reg16} {c0 c1 : Byte} : r = c1 ++ c0 ↔ c0 = lowByte r ∧ c1 = highByte r := by
  constructor
  · rintro rfl
    simp
  · rintro ⟨rfl, rfl⟩
    exact (highByte_append_lowByte r).symm

theorem zext16_eq_append (b : Byte) : zext16 b = 0x00#8 ++ b := BitVec.setWidth_eq_append (w := 16) (by decide)

theorem zext16_highByte (r : Reg16) : zext16 (highByte r) = r >>> 8 :=
  (zext16_eq_append _).trans (BitVec.ushiftRight_eq_extractLsb'_of_lt (w := 16) (by decide)).symm

/-- The XOR of a byte clears bits 7:0 exactly where it meets itself. -/
theorem xor_zext16_eq_append_zero_iff {r : Reg16} {c0 c1 : Byte} :
    r ^^^ zext16 c0 = c1 ++ 0x00#8 ↔ c0 = lowByte r ∧ c1 = highByte r := by
  have hclear : c1 ++ 0x00#8 = (c1 ++ c0) ^^^ zext16 c0 := by
    rw [zext16_eq_append, BitVec.xor_append, BitVec.xor_zero, BitVec.xor_self]
  rw [hclear, ← eq_append_iff]
  exact BitVec.xor_left_inj _

/-- As long as only zeros are shifted out, no step applies the feedback. -/
theorem shiftStep_iterate_of_low_zero (r : Reg16) (n : Nat) (h : ∀ i < n, r.getLsbD i = false) :
    shiftStep^[n] r = r >>> n := by
  induction n with
  | zero => simp
  | succ n ih =>
    have hbit : (r >>> n).getLsbD 0 = false := by simpa using h n (Nat.lt_succ_self n)
    rw [Function.iterate_succ_apply', ih fun i hi => h i (Nat.lt_succ_of_lt hi), shiftStep_of_even hbit,
      BitVec.shiftRight_add]

theorem shift8_append_zero (b : Byte) : shift8 (b ++ 0x00#8) = zext16 b := by
  have hlow : ∀ i < 8, (b ++ 0x00#8).getLsbD i = false := fun i hi =>
    BitVec.getLsbD_append.trans (by simp [hi])
  rw [shift8, shiftStep_iterate_of_low_zero _ 8 hlow, ← zext16_highByte, highByte_append]

theorem updateByte_lowByte (r : Reg16) : updateByte r (lowByte r) = zext16 (highByte r) := by
  rw [updateByte_eq_shift8, xor_zext16_eq_append_zero_iff.mpr ⟨rfl, rfl⟩, shift8_append_zero]

/-- Settles O9: the XOR clears bits 7:0, and eight plain shifts bring the high byte down. -/
theorem ownLowByteShiftsTheRegisterDown : Obligations.OwnLowByteShiftsTheRegisterDown := by
  unfold Obligations.OwnLowByteShiftsTheRegisterDown
  refine ⟨fun r => ⟨updateByte_lowByte r, ?_⟩, by decide, by decide⟩
  exact (updateByte_lowByte r).trans (zext16_highByte r)

theorem shift8_eq_zero_iff {r : Reg16} : shift8 r = 0x0000 ↔ r = 0x0000 :=
  shift8_bijective.injective.eq_iff' (by decide)

/-- One byte empties the register exactly where it is the whole register. -/
theorem updateByte_eq_zero_iff {r : Reg16} {b : Byte} : updateByte r b = 0x0000 ↔ r = zext16 b := by
  rw [updateByte_eq_shift8, shift8_eq_zero_iff]
  exact BitVec.xor_eq_zero_iff

/-- Settles O10: the second byte has to be all of the register, which the first one leaves there exactly
where it cleared bits 7:0. -/
theorem residueIsZeroExactlyForOwnBytes : Obligations.ResidueIsZeroExactlyForOwnBytes := by
  unfold Obligations.ResidueIsZeroExactlyForOwnBytes
  intro r c0 c1
  calc updateByte (updateByte r c0) c1 = 0x0000
    _ ↔ updateByte r c0 = zext16 c1 := updateByte_eq_zero_iff
    _ ↔ shift8 (r ^^^ zext16 c0) = shift8 (c1 ++ 0x00#8) := by rw [updateByte_eq_shift8, shift8_append_zero]
    _ ↔ r ^^^ zext16 c0 = c1 ++ 0x00#8 := shift8_bijective.injective.eq_iff
    _ ↔ c0 = lowByte r ∧ c1 = highByte r := xor_zext16_eq_append_zero_iff

end Sys2Proof.Machine
end

section
/-! The register and the checksum of a message (40_crc_core.md R73, R74, R80, R86). -/

namespace Sys2Proof.Machine

theorem absorbAll_eq_foldl (r : Reg16) (s : List Byte) : absorbAll r s = s.foldl updateByte r := by
  induction s generalizing r with
  | nil => rfl
  | cons b s ih => exact ih (updateByte r b)

/-- Settles O3: the loop is the left fold of `updateByte`. -/
theorem crc16RegRunsTheLoopFromAllOnes : Obligations.Crc16RegRunsTheLoopFromAllOnes :=
  ⟨rfl, absorbAll_eq_foldl Config.initValue⟩

theorem crc16Reg_append (s t : List Byte) : crc16Reg (s ++ t) = absorbAll (crc16Reg s) t :=
  absorbAll_append Config.initValue s t

/-- Settles O5: `absorbAll_append` from the initial value; one more byte is a second part of length one. -/
theorem absorptionComposes : Obligations.AbsorptionComposes :=
  ⟨crc16Reg_append, fun s b => crc16Reg_append s [b]⟩

theorem toNat_lowByte (r : Reg16) : (lowByte r).toNat = r.toNat % 256 := by
  simp [lowByte, BitVec.extractLsb'_toNat]

theorem toNat_highByte (r : Reg16) : (highByte r).toNat = r.toNat / 256 := by
  have hdiv : r.toNat / 256 < 256 := Nat.div_lt_of_lt_mul r.isLt
  rw [highByte, BitVec.extractLsb'_toNat, Nat.shiftRight_eq_div_pow]
  exact Nat.mod_eq_of_lt hdiv

/-- Settles O4: the two bytes of the final register value as numbers. -/
theorem checksumIsTwoBytesLowByteFirst : Obligations.ChecksumIsTwoBytesLowByteFirst := by
  unfold Obligations.ChecksumIsTwoBytesLowByteFirst
  exact ⟨fun s => ⟨_, _, rfl, toNat_lowByte _, toNat_highByte _⟩, by decide, by decide⟩

theorem crc16_eq_pair_iff {s : List Byte} {c0 c1 : Byte} :
    crc16 s = [c0, c1] ↔ c0 = lowByte (crc16Reg s) ∧ c1 = highByte (crc16Reg s) := by
  simp [crc16, eq_comm]

theorem crc16Reg_ascii_digits :
    crc16Reg [0x31, 0x32, 0x33, 0x34, 0x35, 0x36, 0x37, 0x38, 0x39] = 0x4B37 := by
  simp [crc16Reg, updateByte, shiftStep, zext16, Config.initValue, Config.feedback]

/-- Settles O6: each value by evaluation, the two-byte messages one byte at a time. -/
theorem checkValuesOfTheChecksum : Obligations.CheckValuesOfTheChecksum := by
  unfold Obligations.CheckValuesOfTheChecksum
  have hzero : updateByte 0xFFFF 0x00 = 0x40BF := by decide
  have hff : updateByte 0xFFFF 0xFF = 0x00FF := by decide
  refine ⟨by decide, by decide, by decide, by decide, by decide, hzero, hff, ?_, ?_, crc16Reg_ascii_digits, ?_⟩
  · exact (congrArg (updateByte · 0xFF) hff).trans (by decide)
  · exact (congrArg (updateByte · 0x00) hzero).trans (by decide)
  · rw [crc16, crc16Reg_ascii_digits]
    decide

end Sys2Proof.Machine
end

section
/-! The validity of a frame: the comparison of its last two bytes, and the residue (40_crc_core.md R78, R79,
R85, R87). -/

namespace Sys2Proof.Machine

theorem frameValid_of_length_lt {f : List Byte} (h : f.length < 2) : frameValid f = false := if_pos h

theorem frameValid_append_pair (s : List Byte) (c0 c1 : Byte) :
    frameValid (s ++ [c0, c1]) = true ↔ crc16 s = [c0, c1] := by
  simp [frameValid]

/-- Settles O12: the last two bytes are compared with the checksum of the rest, which is FF FF for no bytes. -/
theorem frameValidComparesTheLastTwoBytes : Obligations.FrameValidComparesTheLastTwoBytes := by
  unfold Obligations.FrameValidComparesTheLastTwoBytes
  refine ⟨frameValid_append_pair, fun f => frameValid_of_length_lt, fun c0 c1 => ?_⟩
  have hempty : crc16 [] = [0xFF, 0xFF] := by decide
  rw [← List.nil_append [c0, c1], frameValid_append_pair, hempty]
  simp [eq_comm]

/-- Settles O13: the two bytes appended are those the comparison asks for. -/
theorem appendedChecksumValidates : Obligations.AppendedChecksumValidates :=
  fun s => (frameValid_append_pair s _ _).mpr rfl

theorem exists_append_pair_of_two_le_length {f : List Byte} (h : 2 ≤ f.length) :
    ∃ s c0 c1, f = s ++ [c0, c1] := by
  obtain ⟨c0, c1, hdrop⟩ : ∃ c0 c1, f.drop (f.length - 2) = [c0, c1] :=
    List.length_eq_two.mp (by rw [List.length_drop]; omega)
  exact ⟨f.take (f.length - 2), c0, c1, by rw [← hdrop, List.take_append_drop]⟩

/-- The register starts at 0xFFFF, and its high byte is still set when the first byte has been XORed in. -/
theorem two_le_length_of_crc16Reg_eq_zero {f : List Byte} (h : crc16Reg f = 0x0000) : 2 ≤ f.length := by
  match f with
  | [] => exact absurd h (by decide)
  | [b] =>
    have hb : Config.initValue = zext16 b := updateByte_eq_zero_iff.mp h
    have hbit : Config.initValue.getLsbD 8 = b.getLsbD 8 := by rw [hb, zext16_getLsbD]
    rw [BitVec.getLsbD_of_ge b 8 (Nat.le_refl 8)] at hbit
    exact absurd hbit (by decide)
  | _ :: _ :: s => simp

/-- The residue test: a frame is valid exactly when absorbing all of it empties the register. -/
theorem frameValid_iff_crc16Reg_eq_zero (f : List Byte) : frameValid f = true ↔ crc16Reg f = 0x0000 := by
  by_cases hlen : 2 ≤ f.length
  · obtain ⟨s, c0, c1, rfl⟩ := exists_append_pair_of_two_le_length hlen
    calc frameValid (s ++ [c0, c1]) = true
      _ ↔ crc16 s = [c0, c1] := frameValid_append_pair s c0 c1
      _ ↔ c0 = lowByte (crc16Reg s) ∧ c1 = highByte (crc16Reg s) := crc16_eq_pair_iff
      _ ↔ absorbAll (crc16Reg s) [c0, c1] = 0x0000 := (residueIsZeroExactlyForOwnBytes (crc16Reg s) c0 c1).symm
      _ ↔ crc16Reg (s ++ [c0, c1]) = 0x0000 := by rw [crc16Reg_append]
  · rw [frameValid_of_length_lt (Nat.lt_of_not_le hlen)]
    exact iff_of_false Bool.false_ne_true (mt two_le_length_of_crc16Reg_eq_zero hlen)

/-- Settles O11: the residue test, whose zero register implies the two bytes. -/
theorem frameValidExactlyWhenResidueIsZero : Obligations.FrameValidExactlyWhenResidueIsZero := by
  unfold Obligations.FrameValidExactlyWhenResidueIsZero
  refine ⟨fun f => ?_, fun f => two_le_length_of_crc16Reg_eq_zero⟩
  rw [frameValid_iff_crc16Reg_eq_zero, and_iff_right_of_imp two_le_length_of_crc16Reg_eq_zero]

theorem frameValid_concat_iff {f : List Byte} (hf : frameValid f = true) (b : Byte) :
    frameValid (f ++ [b]) = true ↔ b = 0x00 := by
  calc frameValid (f ++ [b]) = true
    _ ↔ updateByte (crc16Reg f) b = 0x0000 := by
      rw [frameValid_iff_crc16Reg_eq_zero, crc16Reg_append]
      rfl
    _ ↔ zext16 0x00 = zext16 b := by
      rw [(frameValid_iff_crc16Reg_eq_zero f).mp hf, updateByte_eq_zero_iff]
      rfl
    _ ↔ b = 0x00 := zext16_injective.eq_iff.trans eq_comm

theorem absorbAll_zero_replicate_zero (n : Nat) : absorbAll 0x0000 (List.replicate n 0x00) = 0x0000 := by
  induction n with
  | zero => rfl
  | succ n ih => exact ih

/-- Settles O14: the register of a valid frame is zero, and a byte keeps it zero exactly when it is zero. -/
theorem onlyZeroBytesKeepAFrameValid : Obligations.OnlyZeroBytesKeepAFrameValid := by
  unfold Obligations.OnlyZeroBytesKeepAFrameValid
  have hframe : crc16Reg [0x01, 0x01, 0x00, 0x00, 0x00, 0x10, 0x3D, 0xC6] = 0x0000 := by
    simp [crc16Reg, updateByte, shiftStep, zext16, Config.initValue, Config.feedback]
  have hvalid := (frameValid_iff_crc16Reg_eq_zero _).mpr hframe
  refine ⟨fun f b hf => frameValid_concat_iff hf b, fun f n hf => ?_, hvalid,
    (frameValid_concat_iff hvalid 0x00).mpr rfl, ?_, ?_⟩
  · have hzeros : crc16Reg (f ++ List.replicate n 0x00) = 0x0000 := by
      rw [crc16Reg_append, (frameValid_iff_crc16Reg_eq_zero f).mp hf, absorbAll_zero_replicate_zero]
    exact ⟨(frameValid_iff_crc16Reg_eq_zero _).mpr hzeros, hzeros⟩
  · exact Bool.eq_false_iff.mpr (mt (frameValid_concat_iff hvalid 0x01).mp (by decide))
  · refine (crc16Reg_append [0x01, 0x01, 0x00, 0x00, 0x00, 0x10, 0x3D, 0xC6] [0x01]).trans ?_
    rw [hframe]
    decide

end Sys2Proof.Machine
end

section
/-! The write operations (41_write_ops.md): the words that select each, and what it leaves of the state. -/

namespace Sys2Proof.Machine

/-- The word of a write with its byte added is decoded to that write with that byte. -/
theorem decodeWord_write_add_setWidth (a : PortAddr) (d : Byte) :
    decodeWord (mkWord true a 0x00 + d.setWidth 11) = decodeWrite (regOfAddr a) d := by
  rw [← mkWord_eq_add_setWidth, decodeWord_mkWord_write]

theorem decodeWord_of_init {w : TxWord} (h : w &&& 0x701 = 0x501) : decodeWord w = .init := by
  obtain ⟨hwrite, hcsr, hodd⟩ := and_0x701_eq_init_iff.mp h
  rw [decodeWord, if_pos hwrite, hcsr]
  exact decodeWrite_csr_of_odd hodd

/-- CSR reads as the flag in bit 1 and zeros around it. -/
theorem regRead_csr (crc : Reg16) : regRead .csr crc = if crc = 0x0000 then 0x02 else 0x00 := by
  by_cases h : crc = 0x0000
  · rw [if_pos h, h]
    decide
  · have hflag : zeroFlag crc = false := beq_false_of_ne h
    rw [if_neg h, regRead, csrByte, hflag]
    rfl

/-- Settles O25: `exec_upd` names the next state; its own low byte shifts the register down (`updateByte_lowByte`). -/
theorem updAbsorbsItsByte : Obligations.UpdAbsorbsItsByte := by
  unfold Obligations.UpdAbsorbsItsByte
  refine ⟨decodeWord_write_add_setWidth 0, fun b s => ?_, fun s => ?_, by decide, by decide, by decide⟩
  · exact ⟨_, exec_upd s b, rfl, regRead_csr _, rfl, rfl⟩
  · exact ⟨_, exec_upd s (lowByte s.crc), (updateByte_lowByte s.crc).trans (zext16_highByte s.crc)⟩

/-- Settles O26: `exec_init` names the state after the first INIT and after the second. -/
theorem initSetsTheRegisterToAllOnes : Obligations.InitSetsTheRegisterToAllOnes := by
  unfold Obligations.InitSetsTheRegisterToAllOnes
  refine ⟨fun w => decodeWord_of_init, fun s => ?_⟩
  exact ⟨_, _, exec_init s, rfl, regRead_csr 0xFFFF, rfl, rfl, exec_init _, rfl⟩

/-- A transaction that does no more than leave `rdata` free keeps the register, all that is read of it, the
port and the observations. -/
theorem exec_frame_of_driveUnspecified {i : Instr} {s : State} (h : exec i s = .next s.driveUnspecified) :
    ∃ t, exec i s = .next t ∧ t.crc = s.crc ∧ (∀ r, regRead r t.crc = regRead r s.crc) ∧
      t.port = s.port ∧ t.observed = s.observed :=
  ⟨_, h, by simp⟩

/-- Settles O27: an odd byte alone would make the CSR write an INIT; each of the three meets the frame lemma. -/
theorem ignoredWritesChangeNothing : Obligations.IgnoredWritesChangeNothing := by
  unfold Obligations.IgnoredWritesChangeNothing
  refine ⟨fun v heven => ?_, decodeWord_write_add_setWidth 2, decodeWord_write_add_setWidth 3,
    fun v s _ => exec_frame_of_driveUnspecified (exec_wcsr s v),
    fun v s => exec_frame_of_driveUnspecified (exec_wlo s v),
    fun v s => exec_frame_of_driveUnspecified (exec_whi s v)⟩
  exact (decodeWord_write_add_setWidth 1 v).trans (decodeWrite_csr_of_even heven)

end Sys2Proof.Machine
end

section
/-! The read operations (42_read_ops.md): the words that select each, the byte it returns, and what it leaves
unchanged. -/

namespace Sys2Proof.Machine

/-- The words of a read row differ in the data byte alone, which the decoder drops. -/
theorem decodeWord_of_read_row {w : TxWord} (r : PortReg)
    (h : w &&& 0x700 = mkWord false (addrOfReg r) 0x00) : decodeWord w = decodeRead r := by
  rw [and_0x700, mkWord_inj] at h
  obtain ⟨hread, haddr, -⟩ := h
  rw [← mkWord_fields w, hread, haddr, decodeWord_mkWord_read, regOfAddr_addrOfReg]

/-- A read of a register value that is known returns its view of that value. -/
theorem exec_decodeRead_of_crc {s : State} {v : Reg16} (r : PortReg) (h : s.crc = v) :
    ∃ u, exec (decodeRead r) s = .next u ∧ u.rdata = regRead r v :=
  ⟨_, exec_decodeRead r s, by rw [State.driveRead_rdata, h]⟩

theorem crc_of_exec_init {s t : State} (h : exec .init s = .next t) : t.crc = Config.initValue := by
  obtain ⟨hcrc, -, -⟩ := exec_cases h
  exact hcrc

/-- Without a performed UPD the empty history stays empty. -/
theorem historyCycle_nil_of_not_upd {c : PortCycle}
    (h : c.rst = false → c.sel = true → (decodeWord c.word).opcode ≠ .upd) : historyCycle [] c = [] := by
  unfold historyCycle
  cases hr : c.rst with
  | true => rfl
  | false =>
    cases hs : c.sel with
    | false => rfl
    | true =>
      cases hd : decodeWord c.word with
      | upd b => exact absurd (congrArg Instr.opcode hd) (h hr hs)
      | init | wcsr | wlo | whi | rdata | rcsr | rlo | rhi => rfl

theorem history_nil_of_no_upd {cs : List PortCycle}
    (h : ∀ d ∈ cs, d.rst = false → d.sel = true → (decodeWord d.word).opcode ≠ .upd) :
    history [] cs = [] := by
  induction cs with
  | nil => rfl
  | cons c cs ih =>
    obtain ⟨hc, hcs⟩ := List.forall_mem_cons.mp h
    rw [history, List.foldl_cons, historyCycle_nil_of_not_upd hc]
    exact ih hcs

theorem exec_rlo_of_explains_nil {s : State} (h : Explains [] s) :
    ∃ u, exec .rlo s = .next u ∧ u.rdata = 0xFF :=
  exec_decodeRead_of_crc .crcLo h

/-- Settles O30: a run whose last INIT or reset is followed by no UPD leaves the register standing for no bytes
(`registerIsAFunctionOfTheBytesSinceInit`, `history_nil_of_no_upd`), as do INIT and reset themselves. -/
theorem rloReturnsTheLowByte : Obligations.RloReturnsTheLowByte := by
  unfold Obligations.RloReturnsTheLowByte
  refine ⟨fun w => decodeWord_of_read_row .crcLo, fun s => ?_,
    fun s t ht => exec_rlo_of_explains_nil (crc_of_exec_init ht),
    exec_rlo_of_explains_nil resetIsExplainedByNoBytes, fun s => exec_rlo_of_explains_nil,
    fun before after c s hp hc hno => ?_, fun s => exec_decodeRead_of_crc .crcLo⟩
  · exact ⟨_, exec_rlo s, toNat_lowByte s.crc, rfl, rfl, rfl⟩
  · obtain ⟨-, hforget⟩ := registerIsAFunctionOfTheBytesSinceInit
    obtain ⟨t, ht, hcrc⟩ := hforget before after c s hp hc
    rw [history_nil_of_no_upd hno] at hcrc
    obtain ⟨u, hu, hread⟩ := exec_rlo_of_explains_nil hcrc
    exact ⟨t, u, ht, hu, hread⟩

/-- Settles O28: `exec_rdata` names the next state, whatever state it is performed in. -/
theorem rdataReturnsZero : Obligations.RdataReturnsZero := by
  unfold Obligations.RdataReturnsZero
  exact ⟨fun w => decodeWord_of_read_row .data, fun s => ⟨_, exec_rdata s, rfl, rfl, rfl, rfl⟩,
    fun b s t _ => ⟨_, exec_rdata t, rfl⟩⟩

/-- The empty message with its checksum FF FF is a valid frame, so it empties the register. -/
theorem crc16Reg_ff_ff : crc16Reg [0xFF, 0xFF] = 0x0000 := by
  have hempty : crc16 [] = [0xFF, 0xFF] := by decide
  rw [← hempty, ← frameValid_iff_crc16Reg_eq_zero]
  exact appendedChecksumValidates []

/-- Settles O29: the byte is `regRead_csr` of a register that the read leaves as it was. -/
theorem rcsrReturnsTheZeroFlagInBitOne : Obligations.RcsrReturnsTheZeroFlagInBitOne := by
  unfold Obligations.RcsrReturnsTheZeroFlagInBitOne
  refine ⟨fun w => decodeWord_of_read_row .csr, fun s => ?_,
    fun s t ht => exec_decodeRead_of_crc .csr (crc_of_exec_init ht),
    exec_decodeRead_of_crc .csr (s := State.reset) rfl, crc16Reg_ff_ff⟩
  rw [← regRead_csr]
  exact ⟨_, exec_rcsr s, rfl, rfl, rfl, rfl, _, exec_rcsr _, rfl⟩

/-- Settles O31: each read leaves the register to the other, so in either order the two return its two bytes,
which are the checksum of what it stands for. -/
theorem rhiReturnsTheHighByte : Obligations.RhiReturnsTheHighByte := by
  unfold Obligations.RhiReturnsTheHighByte
  refine ⟨fun w => decodeWord_of_read_row .crcHi, fun s => ?_, fun h s hs => ?_,
    fun s => exec_decodeRead_of_crc .crcHi⟩
  · exact ⟨_, exec_rhi s, toNat_highByte s.crc, rfl, rfl, rfl⟩
  · have hpair : [lowByte s.crc, highByte s.crc] = crc16 h := by rw [hs, crc16]
    exact ⟨⟨_, _, exec_rlo s, exec_rhi _, hpair⟩, ⟨_, _, exec_rhi s, exec_rlo _, hpair⟩⟩

end Sys2Proof.Machine
end

section
/-! Sequences of cycles as triples: the register before, the register after and the bytes the host reads.
One triple per piece of a pseudo-instruction, composed by `RunsTo.append` (43_sequences.md R120 to R126). -/

namespace Sys2Proof.Machine

/-- Performing the cycles `cs` from the register value `r` completes, whatever else the state holds and
whatever is presented after them: it leaves `r'`, the host has read `reads`, and the rest is still pending. -/
def RunsTo (cs : List PortCycle) (r r' : Reg16) (reads : List Byte) : Prop :=
  ∀ (s : State) (rest : List PortCycle), s.crc = r → s.port = cs ++ rest →
    ∃ t, Host.Core.run Sys2Proof.core cs.length s = .next t ∧ t.crc = r' ∧
      t.observed = s.observed ++ reads ∧ t.port = rest

theorem RunsTo.append {cs ds : List PortCycle} {r r' r'' : Reg16} {reads reads' : List Byte}
    (hcs : RunsTo cs r r' reads) (hds : RunsTo ds r' r'' reads') :
    RunsTo (cs ++ ds) r r'' (reads ++ reads') := by
  intro s rest hr hp
  obtain ⟨t, ht, htcrc, htobs, htport⟩ := hcs s (ds ++ rest) hr (by rw [hp, List.append_assoc])
  obtain ⟨u, hu, hucrc, huobs, huport⟩ := hds t rest htcrc htport
  refine ⟨u, ?_, hucrc, ?_, huport⟩
  · rw [List.length_append, run_add _ _ s ht, hu]
  · rw [huobs, htobs, List.append_assoc]

/-- One cycle that presents an instruction by its canonical word performs that instruction. -/
theorem runsTo_ofInstr {i : Instr} (hi : i.WellFormed) (r : Reg16) :
    RunsTo [PortCycle.ofInstr i] r (crcAfter i r) (readsOf i r) := by
  rintro s rest rfl (hp : s.port = PortCycle.ofInstr i :: rest)
  obtain ⟨t, ht⟩ := exec_completes i { s with port := rest }
  obtain ⟨hcrc, hport, hobs⟩ := exec_cases ht
  have hstep : step s = .next t := by
    rw [step_ofWord hp, decodeWord_encode hi, ht]
  exact ⟨t, run_succ 0 hstep, hcrc, hobs, hport⟩

theorem runsTo_init (r : Reg16) : RunsTo [PortCycle.ofInstr .init] r Config.initValue [] :=
  runsTo_ofInstr rfl r

theorem runsTo_updAll (m : List Byte) (r : Reg16) : RunsTo (updAll m) r (absorbAll r m) [] := by
  induction m generalizing r with
  | nil => exact fun s rest hr hp => ⟨s, run_zero s, hr, (List.append_nil _).symm, hp⟩
  | cons b m ih => exact (runsTo_ofInstr (i := .upd b) rfl r).append (ih (updateByte r b))

theorem runsTo_readBoth (r : Reg16) : RunsTo readBoth r r [lowByte r, highByte r] :=
  (runsTo_ofInstr (i := .rlo) rfl r).append (runsTo_ofInstr (i := .rhi) rfl r)

theorem runsTo_msgCycles (m : List Byte) (r : Reg16) : RunsTo (msgCycles m) r (crc16Reg m) (crc16 m) :=
  (runsTo_init r).append ((runsTo_updAll m _).append (runsTo_readBoth _))

theorem runsTo_verifyResCycles (f : List Byte) (r : Reg16) :
    RunsTo (verifyResCycles f) r (crc16Reg f) [csrByte (crc16Reg f)] :=
  (runsTo_init r).append ((runsTo_updAll f _).append (runsTo_ofInstr (i := .rcsr) rfl _))

@[simp] theorem length_updAll (m : List Byte) : (updAll m).length = m.length := List.length_map _

@[simp] theorem length_msgCycles (m : List Byte) : (msgCycles m).length = m.length + 3 := by
  simp [msgCycles, readBoth]

@[simp] theorem length_verifyResCycles (f : List Byte) : (verifyResCycles f).length = f.length + 2 := by
  simp [verifyResCycles]

end Sys2Proof.Machine
end

section
/-! `CRC16.MSG` and what a host builds from the two bytes it reads (43_sequences.md R120, R121, R122, R124). -/

namespace Sys2Proof.Machine

/-- Settles O52: INIT makes the register before the sequence irrelevant, and the two reads return the bytes of
the register the message left. -/
theorem msgReturnsTheChecksum : Obligations.MsgReturnsTheChecksum := by
  unfold Obligations.MsgReturnsTheChecksum
  intro m s rest hp
  obtain ⟨t, ht, hcrc, hobs, hport⟩ := runsTo_msgCycles m s.crc s rest rfl hp
  exact ⟨length_msgCycles m, t, ht, hcrc, hobs, hport, congrArg zeroFlag hcrc⟩

theorem crc16_nil : crc16 [] = [0xFF, 0xFF] := by decide

theorem msgCycles_nil :
    msgCycles [] = [PortCycle.ofWord 0x501, PortCycle.ofWord 0x200, PortCycle.ofWord 0x300] := rfl

/-- Settles O53: the empty message is a message, and reset leaves the register that INIT would. -/
theorem emptyMessageReadsAllOnes : Obligations.EmptyMessageReadsAllOnes := by
  unfold Obligations.EmptyMessageReadsAllOnes
  refine ⟨fun s rest hp => ?_, msgCycles_nil, fun rest => ?_⟩
  · obtain ⟨t, ht, -, hobs, hport⟩ := runsTo_msgCycles [] s.crc s rest rfl hp
    exact ⟨t, ht, by rw [hobs, crc16_nil], hport⟩
  · obtain ⟨t, ht, -, hobs, hport⟩ :=
      runsTo_readBoth Config.initValue (State.reset.present (readBoth ++ rest)) rest rfl rfl
    exact ⟨t, ht, hobs.trans crc16_nil, hport⟩

/-- Settles O54: the bytes read are the checksum, and a message with its checksum is valid (R79). -/
theorem appendBuildsAValidFrame : Obligations.AppendBuildsAValidFrame := by
  unfold Obligations.AppendBuildsAValidFrame
  intro m s rest hp
  obtain ⟨t, ht, -, hobs, -⟩ := runsTo_msgCycles m s.crc s rest rfl hp
  exact ⟨t, crc16 m, ht, hobs, rfl, appendedChecksumValidates m⟩

/-- Settles O55: the reads leave the register to the second part, which absorbs on from there
(`crc16Reg_append`). -/
theorem prefixChecksumsCanBeReadOnTheWay : Obligations.PrefixChecksumsCanBeReadOnTheWay := by
  unfold Obligations.PrefixChecksumsCanBeReadOnTheWay
  intro a b s rest hp
  have hcontinue : RunsTo (updAll b ++ readBoth) (crc16Reg a) (crc16Reg (a ++ b)) (crc16 (a ++ b)) := by
    rw [crc16, crc16Reg_append]
    exact (runsTo_updAll b _).append (runsTo_readBoth _)
  obtain ⟨t, ht, hcrc, hobs, hport⟩ := (runsTo_msgCycles a s.crc).append hcontinue s rest rfl hp
  exact ⟨t, ht, by rw [hobs, List.append_assoc], hcrc, hport⟩

end Sys2Proof.Machine
end

section
/-! The two ways to verify a frame, against its validity (43_sequences.md R125, R126). -/

namespace Sys2Proof.Machine

theorem verifyCmpCycles_of_length_lt {f : List Byte} (h : f.length < 2) : verifyCmpCycles f = [] := if_pos h

theorem verifyCmpCycles_of_two_le_length {f : List Byte} (h : 2 ≤ f.length) :
    verifyCmpCycles f = msgCycles (f.take (f.length - 2)) := if_neg (Nat.not_lt.mpr h)

theorem verifyCmpOk_of_length_lt {f : List Byte} (reads : List Byte) (h : f.length < 2) :
    verifyCmpOk f reads = false := if_pos h

/-- The host's comparison against the checksum of all but the last two bytes is that of R78. -/
theorem verifyCmpOk_crc16 (f : List Byte) :
    verifyCmpOk f (crc16 (f.take (f.length - 2))) = frameValid f := rfl

theorem length_verifyCmpCycles (f : List Byte) :
    (verifyCmpCycles f).length = if f.length < 2 then 0 else f.length + 1 := by
  split
  case isTrue hlt => rw [verifyCmpCycles_of_length_lt hlt, List.length_nil]
  case isFalse hge =>
    rw [verifyCmpCycles_of_two_le_length (Nat.not_lt.mp hge), length_msgCycles, List.length_take]
    omega

/-- Settles O56: a frame of fewer than two bytes asks the block nothing and is invalid; for any other the bytes
read are the checksum the comparison of R78 asks for. -/
theorem verifyByComparisonDecidesValidity : Obligations.VerifyByComparisonDecidesValidity := by
  unfold Obligations.VerifyByComparisonDecidesValidity
  intro f s rest hp
  refine ⟨length_verifyCmpCycles f, ?_⟩
  by_cases hlen : f.length < 2
  · rw [verifyCmpCycles_of_length_lt hlen] at hp ⊢
    exact ⟨s, [], run_zero s, (List.append_nil _).symm, hp,
      (verifyCmpOk_of_length_lt [] hlen).trans (frameValid_of_length_lt hlen).symm⟩
  · rw [verifyCmpCycles_of_two_le_length (Nat.not_lt.mp hlen)] at hp ⊢
    obtain ⟨t, ht, -, hobs, hport⟩ := runsTo_msgCycles _ s.crc s rest rfl hp
    exact ⟨t, _, ht, hobs, hport, verifyCmpOk_crc16 f⟩

/-- Bit 1 of the byte read is the flag (R111). -/
theorem verifyResOk_csrByte (crc : Reg16) : verifyResOk [csrByte crc] = zeroFlag crc :=
  regRead_csr_getLsbD_one crc

theorem csrByte_eq_two_iff (crc : Reg16) : csrByte crc = 0x02 ↔ zeroFlag crc = true := by
  rw [csrByte]
  cases zeroFlag crc <;> decide

theorem zeroFlag_crc16Reg (f : List Byte) : zeroFlag (crc16Reg f) = frameValid f :=
  Bool.eq_iff_iff.mpr (beq_iff_eq.trans (frameValid_iff_crc16Reg_eq_zero f).symm)

/-- Settles O57: the flag read is set exactly when the whole frame empties the register, which is the residue
test of R85. -/
theorem verifyByResidueDecidesValidity : Obligations.VerifyByResidueDecidesValidity := by
  unfold Obligations.VerifyByResidueDecidesValidity
  intro f s rest hp
  obtain ⟨t, ht, hcrc, hobs, hport⟩ := runsTo_verifyResCycles f s.crc s rest rfl hp
  refine ⟨length_verifyResCycles f, t, _, ht, hobs, hport, hcrc, ?_, ?_⟩
  · rw [verifyResOk_csrByte, zeroFlag_crc16Reg]
  · rw [verifyResOk_csrByte, List.singleton_inj, csrByte_eq_two_iff]

end Sys2Proof.Machine
end

section
/-! Every step answers, takes one cycle off the port and lets the host observe one byte for each read presented
in it; so does a run of any length (60_exceptions.md R140, R143; 20_memory.md R39). -/

namespace Sys2Proof.Machine

/-- The state `t` is reached from `s` by taking `k` cycles off the port, with one byte observed for each read
among them. -/
def TakesCycles (k : Nat) (s t : State) : Prop :=
  t.port = s.port.drop k ∧
    ∃ new : List Byte, t.observed = s.observed ++ new ∧
      new.length = ((s.port.take k).filter PortCycle.presentsRead).length

theorem TakesCycles.zero (s : State) : TakesCycles 0 s s :=
  ⟨rfl, [], (List.append_nil _).symm, rfl⟩

theorem TakesCycles.trans {j k : Nat} {s t u : State} (hst : TakesCycles j s t) (htu : TakesCycles k t u) :
    TakesCycles (j + k) s u := by
  obtain ⟨hport, new, hobs, hlen⟩ := hst
  obtain ⟨hport', new', hobs', hlen'⟩ := htu
  refine ⟨by rw [hport', hport, List.drop_drop], new ++ new', by rw [hobs', hobs, List.append_assoc], ?_⟩
  rw [List.length_append, hlen, hlen', hport, List.take_add, List.filter_append, List.length_append]

theorem length_readsOf (i : Instr) (crc : Reg16) : (readsOf i crc).length = i.isRead.toNat := by
  cases i <;> rfl

theorem isRead_decodeWrite (r : PortReg) (d : Byte) : (decodeWrite r d).isRead = false := by
  cases r with
  | csr =>
    cases h : d.getLsbD 0 with
    | false => rw [decodeWrite_csr_of_even h, Instr.isRead]
    | true => rw [decodeWrite_csr_of_odd h, Instr.isRead]
  | data | crcLo | crcHi => rfl

theorem isRead_decodeRead (r : PortReg) : (decodeRead r).isRead = true := by
  cases r <;> rfl

theorem isRead_decodeWord (w : TxWord) : (decodeWord w).isRead = !weOf w := by
  rw [decodeWord]
  cases weOf w with
  | false => exact isRead_decodeRead _
  | true => exact isRead_decodeWrite _ _

/-- A cycle adds one byte to the observations when it presents a read, under reset too (log entry 5), and none
otherwise. -/
theorem performCycle_observed {c : PortCycle} {s t : State} (h : performCycle c s = .next t) :
    ∃ new : List Byte, t.observed = s.observed ++ new ∧ new.length = c.presentsRead.toNat := by
  cases hr : c.rst with
  | true =>
    cases (performCycle_of_rst s hr).symm.trans h
    rw [resetCycle_observed]
    cases c.presentsRead with
    | true => exact ⟨_, rfl, rfl⟩
    | false => exact ⟨[], (List.append_nil _).symm, rfl⟩
  | false =>
    cases hs : c.sel with
    | true =>
      obtain ⟨-, -, hobs⟩ := exec_cases ((performCycle_of_sel s hr hs).symm.trans h)
      refine ⟨_, hobs, ?_⟩
      rw [length_readsOf, isRead_decodeWord, PortCycle.word, weOf_mkWord, PortCycle.presentsRead, hs,
        Bool.true_and]
    | false =>
      cases (performCycle_of_idle s hr hs).symm.trans h
      refine ⟨[], (List.append_nil _).symm, ?_⟩
      rw [PortCycle.presentsRead, hs, Bool.false_and]
      rfl

theorem step_takesCycles (s : State) : ∃ t, step s = .next t ∧ TakesCycles 1 s t := by
  cases hp : s.port with
  | nil =>
    refine ⟨_, step_of_empty hp, ?_, [], (List.append_nil _).symm, ?_⟩
    · rw [idleCycle_port, hp]
      rfl
    · rw [hp]
      rfl
  | cons c rest =>
    obtain ⟨t, ht, -, hport⟩ := step_completes_of_cons hp
    obtain ⟨new, hobs, hlen⟩ := performCycle_observed ((step_of_cons hp).symm.trans ht)
    refine ⟨t, ht, by rw [hport, hp]; rfl, new, hobs, ?_⟩
    rw [hlen, hp]
    cases hread : c.presentsRead <;> simp [hread]

/-- Settles O44, by induction on the number of steps: `step_takesCycles` once per step. -/
theorem runsGoOnInPresentedOrder : Obligations.RunsGoOnInPresentedOrder := by
  unfold Obligations.RunsGoOnInPresentedOrder
  intro k
  induction k with
  | zero => exact fun s => ⟨s, run_zero s, TakesCycles.zero s⟩
  | succ k ih =>
    intro s
    obtain ⟨t, hstep, hst⟩ := step_takesCycles s
    obtain ⟨u, hrun, htu⟩ := ih t
    have hsu : TakesCycles (k + 1) s u := Nat.add_comm 1 k ▸ hst.trans htu
    exact ⟨u, (run_succ k hstep).trans hrun, hsu⟩

/-- Settles O32: `exec_completes` for the transactions and `step_takesCycles` for the cycles. -/
theorem everyTransactionCompletes : Obligations.EveryTransactionCompletes := by
  unfold Obligations.EveryTransactionCompletes
  refine ⟨exec_completes, fun s => ?_⟩
  obtain ⟨t, ht, -⟩ := step_takesCycles s
  exact ⟨t, ht⟩

end Sys2Proof.Machine
end

section
/-! What the host reads in one cycle and in a run as a function of the register and the cycles alone, and the
claims about runs that follow (10_state.md R12, R21; 70_reset_and_hazards.md R165, R170). -/

namespace Sys2Proof.Machine

/-- The bytes a cycle that presents no read under reset adds to the observations. -/
def readsOfCycle (crc : Reg16) (c : PortCycle) : List Byte :=
  if c.rst then []
  else if c.sel then readsOf (decodeWord c.word) crc
  else []

/-- The bytes a list of such cycles adds: each reads the register the cycles before it left. -/
def readsOfCycles (crc : Reg16) : List PortCycle → List Byte
  | [] => []
  | c :: cs => readsOfCycle crc c ++ readsOfCycles (crcAfterCycle crc c) cs

theorem readsOfCycle_of_idle {c : PortCycle} (crc : Reg16) (hr : c.rst = false) (hs : c.sel = false) :
    readsOfCycle crc c = [] := by
  simp [readsOfCycle, hr, hs]

/-- The premise is the host's obligation of R167 for one cycle: without it the byte is a free value. -/
theorem performCycle_observed_eq {c : PortCycle} {s t : State} (hno : c.rst = true → c.presentsRead = false)
    (h : performCycle c s = .next t) : t.observed = s.observed ++ readsOfCycle s.crc c := by
  unfold readsOfCycle
  cases hr : c.rst with
  | true =>
    cases (performCycle_of_rst s hr).symm.trans h
    rw [resetCycle_observed, hno hr]
    exact (List.append_nil _).symm
  | false =>
    cases hs : c.sel with
    | true =>
      obtain ⟨-, -, hobs⟩ := exec_cases ((performCycle_of_sel s hr hs).symm.trans h)
      exact hobs
    | false =>
      cases (performCycle_of_idle s hr hs).symm.trans h
      exact (List.append_nil _).symm

/-- A run of any length: the register and the new observations are functions of the register before it and of
the cycles taken off the port, and of nothing else. -/
theorem run_crc_observed (k : Nat) (s : State) :
    ∃ t, Host.Core.run Sys2Proof.core k s = .next t ∧
      t.crc = (s.port.take k).foldl crcAfterCycle s.crc ∧
      (NoReadUnderReset s.port → t.observed = s.observed ++ readsOfCycles s.crc (s.port.take k)) := by
  induction k generalizing s with
  | zero => exact ⟨s, run_zero s, rfl, fun _ => (List.append_nil _).symm⟩
  | succ k ih =>
    cases hp : s.port with
    | nil =>
      obtain ⟨t, ht, hcrc, hobs⟩ := ih (idleCycle s)
      rw [idleCycle_port, hp, List.take_nil] at hcrc hobs
      exact ⟨t, (run_succ k (step_of_empty hp)).trans ht, hcrc, hobs⟩
    | cons c rest =>
      obtain ⟨u, hu, hucrc, huport⟩ := step_completes_of_cons hp
      obtain ⟨t, ht, hcrc, hobs⟩ := ih u
      rw [huport, hucrc] at hcrc hobs
      refine ⟨t, (run_succ k hu).trans ht, hcrc, fun hno => ?_⟩
      obtain ⟨hc, hrest⟩ := List.forall_mem_cons.mp hno
      have huobs : u.observed = s.observed ++ readsOfCycle s.crc c :=
        performCycle_observed_eq (s := { s with port := rest }) hc ((step_of_cons hp).symm.trans hu)
      rw [hobs hrest, huobs, List.append_assoc, List.take_succ_cons, readsOfCycles]

/-- Settles O51: by `run_crc_observed` both runs compute the same functions of the same register and cycles. -/
theorem runsWithEqualRegistersObserveTheSame : Obligations.RunsWithEqualRegistersObserveTheSame := by
  unfold Obligations.RunsWithEqualRegistersObserveTheSame
  intro k s s' hcrc hport hno
  obtain ⟨t, ht, htcrc, htobs⟩ := run_crc_observed k s
  obtain ⟨t', ht', htcrc', htobs'⟩ := run_crc_observed k s'
  rw [← hcrc, ← hport] at htcrc' htobs'
  exact ⟨t, t', _, ht, ht', htcrc.trans htcrc'.symm, htobs hno, htobs' hno⟩

/-- The run that performs every cycle of a list. -/
theorem run_all_crc_observed (cs : List PortCycle) (s : State) :
    ∃ t, Host.Core.run Sys2Proof.core cs.length { s with port := cs } = .next t ∧
      t.crc = cs.foldl crcAfterCycle s.crc ∧
      (NoReadUnderReset cs → t.observed = s.observed ++ readsOfCycles s.crc cs) := by
  obtain ⟨t, ht, hcrc, hobs⟩ := run_crc_observed cs.length { s with port := cs }
  rw [List.take_length] at hcrc hobs
  exact ⟨t, ht, hcrc, hobs⟩

theorem isIdle_iff {c : PortCycle} : c.isIdle = true ↔ c.rst = false ∧ c.sel = false := by
  simp [PortCycle.isIdle]

theorem writesCrc_of_isIdle {c : PortCycle} (h : c.isIdle = true) : c.writesCrc = false := by
  obtain ⟨hr, hs⟩ := isIdle_iff.mp h
  simp [PortCycle.writesCrc, hr, hs]

/-- With or without its idle cycles a list has the same cycles that write the register. -/
theorem foldl_crcAfterCycle_filter_not_isIdle (cs : List PortCycle) (crc : Reg16) :
    (cs.filter fun c => !c.isIdle).foldl crcAfterCycle crc = cs.foldl crcAfterCycle crc := by
  have hwrites : ∀ c : PortCycle, (c.writesCrc && !c.isIdle) = c.writesCrc := by
    intro c
    cases h : c.isIdle with
    | false => exact Bool.and_true _
    | true => rw [writesCrc_of_isIdle h, Bool.false_and]
  rw [← foldl_crcAfterCycle_filter_writesCrc, List.filter_filter, ← foldl_crcAfterCycle_filter_writesCrc cs]
  simp only [hwrites]

theorem readsOfCycles_filter_not_isIdle (cs : List PortCycle) (crc : Reg16) :
    readsOfCycles crc (cs.filter fun c => !c.isIdle) = readsOfCycles crc cs := by
  induction cs generalizing crc with
  | nil => rfl
  | cons c cs ih =>
    cases h : c.isIdle with
    | true =>
      obtain ⟨hr, hs⟩ := isIdle_iff.mp h
      rw [List.filter_cons_of_neg (by simp [h]), readsOfCycles, readsOfCycle_of_idle crc hr hs,
        crcAfterCycle_of_idle crc hr hs, ih, List.nil_append]
    | false => rw [List.filter_cons_of_pos (by simp [h]), readsOfCycles, readsOfCycles, ih]

/-- Settles O49: an idle cycle is `idleCycle`, and neither the register nor the reads of a run depend on the idle
cycles in it. -/
theorem idleCyclesMayBeLeftOut : Obligations.IdleCyclesMayBeLeftOut := by
  unfold Obligations.IdleCyclesMayBeLeftOut
  constructor
  · intro s c rest hp hr hs
    exact ⟨_, (step_of_cons hp).trans (performCycle_of_idle _ hr hs), rfl, rfl, rfl⟩
  · intro cs s
    obtain ⟨t, ht, hcrc, hobs⟩ := run_all_crc_observed cs s
    obtain ⟨u, hu, hcrc', hobs'⟩ := run_all_crc_observed (cs.filter fun c => !c.isIdle) s
    rw [foldl_crcAfterCycle_filter_not_isIdle] at hcrc'
    rw [readsOfCycles_filter_not_isIdle] at hobs'
    refine ⟨t, u, ht, hu, hcrc.trans hcrc'.symm, fun hno => (hobs hno).trans (hobs' ?_).symm⟩
    exact fun c hc => hno c (List.mem_of_mem_filter hc)

/-- Settles O58: the bytes of `m` are absorbed from the register that stands for `p`. -/
theorem missingInitSumsBothMessages : Obligations.MissingInitSumsBothMessages := by
  unfold Obligations.MissingInitSumsBothMessages
  refine ⟨fun p m s rest hs hp => ?_, _, exec_init State.reset, rfl⟩
  obtain ⟨t, ht, hcrc, hobs, hport⟩ := runsTo_updAll m (crc16Reg p) s rest hs hp
  rw [length_updAll] at ht
  exact ⟨t, ht, hcrc.trans (crc16Reg_append p m).symm, hport, hobs.trans (List.append_nil _)⟩

end Sys2Proof.Machine
end

section
/-! One cycle in the terms of the rules of 70_reset_and_hazards.md: over the signals of the port (R168), over the
decoded word (R171), under reset (R160), and before the first reset (R161). -/

namespace Sys2Proof.Machine

/-- A cycle whose signals present a write is one RegWrite of the register addressed. -/
theorem performCycle_of_write {c : PortCycle} (s : State) (hr : c.rst = false) (hs : c.sel = true)
    (hw : c.we = true) :
    performCycle c s = .next (s.setCrc (regWrite (regOfAddr c.addr) c.wdata s.crc)).driveUnspecified := by
  rw [performCycle_of_sel s hr hs, PortCycle.word, hw, decodeWord_mkWord_write, exec_decodeWrite]

/-- The four addresses, in the case split of R168. -/
theorem regWrite_regOfAddr (a : PortAddr) (v : Byte) (crc : Reg16) :
    regWrite (regOfAddr a) v crc =
      if a = 0 then updateByte crc v else if a = 1 ∧ v.getLsbD 0 = true then 0xFFFF else crc := by
  obtain ⟨r, rfl⟩ : ∃ r, a = addrOfReg r := ⟨regOfAddr a, by revert a; decide⟩
  rw [regOfAddr_addrOfReg]
  cases r with
  | csr => simp [addrOfReg, regWrite, Config.initValue]
  | data | crcLo | crcHi => rfl

theorem step_of_rst {s : State} {c : PortCycle} {rest : List PortCycle} (hp : s.port = c :: rest)
    (hr : c.rst = true) : step s = .next (resetCycle c { s with port := rest }) :=
  (step_of_cons hp).trans (performCycle_of_rst _ hr)

/-- Settles O40: reset, idle, write and read, each with the state its own lemma names. -/
theorem cycleBehaviourOfThePort : Obligations.CycleBehaviourOfThePort := by
  unfold Obligations.CycleBehaviourOfThePort
  intro s c rest hp
  cases hr : c.rst with
  | true => exact ⟨_, step_of_rst hp hr, by simp [Config.initValue]⟩
  | false =>
    rw [step_of_cons hp]
    cases hs : c.sel with
    | false => exact ⟨_, performCycle_of_idle _ hr hs, by simp⟩
    | true =>
      cases hw : c.we with
      | true => exact ⟨_, performCycle_of_write _ hr hs hw, by simp [regWrite_regOfAddr]⟩
      | false =>
        refine ⟨_, performCycle_of_read _ hr hs hw, rfl, rfl, fun _ _ _ => ?_⟩
        rw [State.driveRead_rdata]
        refine ⟨fun ha => ?_, fun ha => ?_, fun ha => ?_, fun ha => ?_⟩
        · rw [ha]; rfl
        · rw [ha]; exact regRead_csr s.crc
        · rw [ha]; rfl
        · rw [ha]; rfl

/-- Settles O42: `exec_cases` names the register and the reads of the decoded operation, and R171's table is these
two functions written out. -/
theorem stepFunctionOnWords : Obligations.StepFunctionOnWords := by
  unfold Obligations.StepFunctionOnWords
  constructor
  · intro s w rest hp
    obtain ⟨t, ht⟩ := exec_completes (decodeWord w) { s with port := rest }
    obtain ⟨hcrc, hport, hobs⟩ := exec_cases ht
    refine ⟨t, (step_ofWord hp).trans ht, hport, ?_⟩
    generalize decodeWord w = i at hcrc hobs ⊢
    cases i with
    | upd | init | wcsr | wlo | whi => exact ⟨hcrc, hobs.trans (List.append_nil _)⟩
    | rdata | rlo | rhi => exact ⟨hcrc, hobs⟩
    | rcsr => exact ⟨hcrc, regRead_csr s.crc ▸ hobs⟩
  · intro s rest hp
    exact ⟨_, step_of_rst hp rfl, rfl, rfl, rfl⟩

/-- Settles O34: the state is `resetCycle`, whose observations grow only by a read presented with the reset, and
whose register is the one INIT leaves. -/
theorem resetWinsAndLeavesAllOnes : Obligations.ResetWinsAndLeavesAllOnes := by
  unfold Obligations.ResetWinsAndLeavesAllOnes
  intro s c rest hp hr
  have hstep := step_of_rst hp hr
  refine ⟨⟨_, hstep, resetCycle_crc _ _, resetCycle_port _ _, fun hread => ?_⟩, fun t u ht hu => ?_⟩
  · rw [resetCycle_observed, hread]
    rfl
  · cases hstep.symm.trans ht
    rw [resetCycle_crc, crc_of_exec_init hu]

/-- Settles O36: every lemma about a transaction holds for any register value, so for the one at power-up. -/
theorem beforeTheFirstResetTheRegisterIsAnyValue : Obligations.BeforeTheFirstResetTheRegisterIsAnyValue := by
  unfold Obligations.BeforeTheFirstResetTheRegisterIsAnyValue
  intro v
  refine ⟨rfl, ⟨_, _, exec_rlo _, rfl, exec_rlo _, rfl⟩, ⟨_, exec_rhi _, rfl⟩,
    ⟨_, exec_rcsr _, regRead_csr v⟩, fun b => ⟨_, exec_upd _ b, rfl⟩, ⟨_, exec_init _, rfl⟩, ?_⟩
  exact ⟨_, step_of_rst (c := PortCycle.resetOnly) (rest := []) rfl rfl, resetCycle_crc _ _⟩

end Sys2Proof.Machine
end
